-- ==== Sys2Proof/Word.lean ====
section
/-! DEFINITION. The widths of the block's values (00_scope R10, R18; 10_state R51). -/

namespace Sys2Proof

/-- A data value: eight bits (R18, R51). -/
abbrev Byte := BitVec 8

/-- An operation word (R90) or a raw address/row snapshot (R14, R80): 32 bits. -/
abbrev Word := BitVec 32

/-- The level of one control line (R29 to R32). -/
abbrev Bit := BitVec 1

end Sys2Proof
end

