-- ==== Sys2Proof/Config.lean ====
section
/-! DEFINITION. The named values of the block, its configuration (10_state R45; 00_scope R10 to R17), and the
free values: constants with no body, so that no proof can rest on what they are. -/

namespace Sys2Proof

/-- Direction of the eight shared data lines (R26): input is level 0, output level 1. -/
inductive Direction where
  | input
  | output
deriving DecidableEq, Repr, Inhabited

/-- The VideoMode tag (R33, R89): CharacterMode is 0, PixelMode 1. -/
inductive VideoMode where
  | characterMode
  | pixelMode
deriving DecidableEq, Repr, Inhabited

/-- The two writable memory spaces, CHAR and PIX (R55). -/
inductive Plane where
  | char
  | pix
deriving DecidableEq, Repr, Inhabited

/-- What a plane read at an address beyond the plane does (R16, R61 to R63). -/
inductive OorPolicy where
  | fault
  | wrap
  | clamp
deriving DecidableEq, Repr, Inhabited

/-- A timing profile: sixteen bytes, one for each of controller registers 0 to 15 (R22, R179). -/
abbrev Profile := Vector Byte 16

/-- A host command (R99). The contents of a fill are the bytes the host gives, cell 0 first. DESIGN CHOICE (log entry
24; unsafe above 256 profiles): R99 gives `p` no width; it has the 8 bits of an operation word's field (R91), so of more than 256 profiles a
command names the first 256. -/
inductive Command where
  | setMode (m : VideoMode)
  | resetPattern
  | fill (pl : Plane) (contents : List Byte)
  | applyProfile (p : BitVec 8)
  | verifyProfile (p : BitVec 8)
deriving DecidableEq, Repr, Inhabited

/-- What the host's schedule makes of one pass of the sequencer's loop (R183, R185): one iteration of the response
loop, a poll that finds a decoded token or none, or a poll that finds a command character (R99). -/
inductive Pass where
  | iter
  | poll (token : Option Command)
  | character (b : Byte)
deriving DecidableEq, Repr, Inhabited

/-- The configuration of R45, fixed for a run, as plain data. DESIGN CHOICE (log entry 1; safe): State carries it,
so that every statement ranges over every configuration. `NPROF` is the length of `profiles`. -/
structure Config where
  /-- GLYPH_ROM (R20). -/
  glyphRom : Vector Byte 2048
  /-- PROFILES (R179), profile 0 first. -/
  profiles : List Profile
  /-- INITIAL_PROFILE (R16). -/
  initialProfile : Nat
  /-- RESET_MODE (R16, R33). -/
  resetMode : VideoMode
  /-- CHAR_PLANE_SIZE (R13). -/
  charPlaneSize : Nat
  /-- PIXEL_PLANE_SIZE (R13). -/
  pixelPlaneSize : Nat
  /-- CMP_MASK (R14, R158). -/
  cmpMask : Word
  /-- OOR_POLICY (R16, R61). -/
  oorPolicy : OorPolicy
  /-- READABLE (R16): the controller registers that answer a read. -/
  readable : List (BitVec 5)
  /-- T_EH (R15): time-units the enable line stays high in a pulse. -/
  tEH : Nat
  /-- T_EL (R15): time-units it stays low after the falling edge. -/
  tEL : Nat
  /-- CMD_DECODE (R99): a character with no entry decodes to no command. -/
  cmdTable : List (Byte × Command)
deriving DecidableEq, Repr

/-- NPROF (R16). -/
abbrev Config.nprof (c : Config) : Nat := c.profiles.length

/-- The size of a plane (R56, R57, R152). -/
def Config.planeSize (c : Config) : Plane → Nat
  | .char => c.charPlaneSize
  | .pix => c.pixelPlaneSize

/-! ### Free values -/

/-- The `n`-th unconstrained byte (`draw Byte`, R19; log entry 5). -/
opaque Config.freeByte : Nat → Byte

/-- The `n`-th snapshot of the address/row input where no queue gives one (R76; log entry 7). -/
opaque Config.freeSnapshot : Nat → Word

/-- The `n`-th choice of the host's schedule where no queue gives one (R183, R185; log entry 7). -/
opaque Config.freePass : Nat → Pass

/-- The byte the host supplies for cell `i` of the `n`-th fill where the given contents have none (R150; log entry 10). -/
opaque Config.freeFill : Nat → Nat → Byte

/-- GLYPH_ROM of the machine at reset: OPEN (R16, D19; log entry 2). -/
opaque Config.openGlyphRom : Vector Byte 2048

/-- Profile 0 of the machine at reset: OPEN (R179, D20; log entry 2). -/
opaque Config.openFirstProfile : Profile

/-- The machine's profiles after the first: their number and bytes are OPEN (R179, D20; log entry 2). -/
opaque Config.openMoreProfiles : List Profile

/-- RESET_MODE of the machine at reset: OPEN (R33, D5; log entry 2). -/
opaque Config.openResetMode : VideoMode

/-- CMD_DECODE of the machine at reset: OPEN (R99, D21; log entry 2). -/
opaque Config.openCmdTable : List (Byte × Command)

/-- The configuration of the machine at `State.reset`: the defaults of R13 to R16, and a free constant for every
parameter the spec leaves OPEN. DESIGN CHOICE (log entry 3; unsafe): INITIAL_PROFILE is profile number 0. -/
def Config.deployed : Config where
  glyphRom := Config.openGlyphRom
  profiles := Config.openFirstProfile :: Config.openMoreProfiles
  initialProfile := 0
  resetMode := Config.openResetMode
  charPlaneSize := 2000
  pixelPlaneSize := 8000
  cmpMask := 0x0001FFFF#32
  oorPolicy := .fault
  readable := [14#5, 15#5, 16#5, 17#5]
  tEH := 1
  tEL := 1
  cmdTable := Config.openCmdTable

end Sys2Proof
end

