-- ==== Sys2Proof/Syntax.lean ====
section
/-! DEFINITION. The fifteen operations of the block (30_encoding R92), one constructor per row of the opcode table. -/

namespace Sys2Proof

/-- An operation with its operands (R91, R93). The widths of the operands are the widths of the fields. -/
inductive Instr where
  /-- SETDIR d, op 0x1 (R106). -/
  | setdir (d : Direction)
  /-- BUSWR v, op 0x2 (R108). -/
  | buswr (v : Byte)
  /-- BUSRD, op 0x3 (R110). -/
  | busrd
  /-- SETCTL ncs,rs,rw, op 0x4 (R115). -/
  | setctl (ncs rs rw : Bit)
  /-- PULSE, op 0x5 (R116). -/
  | pulse
  /-- WAIT n, op 0x6 (R117). -/
  | wait (n : BitVec 16)
  /-- WRREG idx,v, op 0x7 (R120). -/
  | wrreg (idx : BitVec 5) (v : Byte)
  /-- RDREG idx, op 0x8 (R125). -/
  | rdreg (idx : BitVec 5)
  /-- SETMODE m, op 0x9 (R141). -/
  | setmode (m : VideoMode)
  /-- RESETPAT, op 0xA (R144). -/
  | resetpat
  /-- FILLPLANE pl, op 0xB; the contents are an input (R150). -/
  | fillplane (pl : Plane)
  /-- ITER, op 0xC; the snapshot is an input (R160). -/
  | iter
  /-- APPLYPROF p, op 0xD (R175). -/
  | applyprof (p : BitVec 8)
  /-- VERIFYPROF p, op 0xE (R180). -/
  | verifyprof (p : BitVec 8)
  /-- SERVE a,row, op 0xF (R164). -/
  | serve (a : BitVec 14) (row : BitVec 3)
deriving DecidableEq, Repr

end Sys2Proof
end

