-- ==== Sys2Proof/WellFormed.lean ====
section
/-! DEFINITION. Well-formed operations (30_encoding R93, R95) and configurations (60_exceptions R199). -/

namespace Sys2Proof

/-- The only operand bound the field widths do not give: a profile number is below NPROF (R93, R95). -/
def Instr.wellFormed (c : Config) : Instr → Bool
  | .applyprof p => decide (p.toNat < c.nprof)
  | .verifyprof p => decide (p.toNat < c.nprof)
  | .setdir _ | .buswr _ | .busrd | .setctl _ _ _ | .pulse | .wait _ | .wrreg _ _ | .rdreg _ | .setmode _
  | .resetpat | .fillplane _ | .iter | .serve _ _ => true

/-- The configurations the model gives a meaning to (R118, R159, R199). -/
abbrev Config.WellFormed (c : Config) : Prop :=
  1 ≤ c.tEH ∧ 1 ≤ c.tEL ∧
  c.cmpMask &&& 0x0001FFFF#32 = 0x0001FFFF#32 ∧
  (1 ≤ c.charPlaneSize ∧ c.charPlaneSize ≤ 16384) ∧
  (1 ≤ c.pixelPlaneSize ∧ c.pixelPlaneSize ≤ 16384) ∧
  c.initialProfile < c.nprof

end Sys2Proof
end

