-- ==== Sys2Proof/Decode.lean ====
section
/-! DEFINITION. Decoding and encoding of operation words (30_encoding R90 to R97). -/

namespace Sys2Proof

/-! ### Named values and their bits (R89, R91) -/

/-- Field d of format D: 0 input, 1 output (R91). -/
def directionOfBit (b : Bit) : Direction := if b = 1#1 then .output else .input

/-- The bit of a direction (R26). -/
def bitOfDirection : Direction → Bit
  | .input => 0#1
  | .output => 1#1

/-- Field m of format M: 0 CharacterMode, 1 PixelMode (R89, R91). -/
def videoModeOfBit (b : Bit) : VideoMode := if b = 1#1 then .pixelMode else .characterMode

/-- The bit of a mode (R89). -/
def bitOfVideoMode : VideoMode → Bit
  | .characterMode => 0#1
  | .pixelMode => 1#1

/-- Field pl of format F: 0 CHAR, 1 PIX (R91). -/
def planeOfBit (b : Bit) : Plane := if b = 1#1 then .pix else .char

/-- The bit of a plane (R91). -/
def bitOfPlane : Plane → Bit
  | .char => 0#1
  | .pix => 1#1

/-! ### Decoding -/

/-- Why a word is reserved (R95). -/
inductive Reserved where
  /-- op is 0x0. -/
  | opZero
  /-- A bit outside the format's fields is set. -/
  | strayBit
  /-- An APPLYPROF or VERIFYPROF word whose profile number is not below NPROF. -/
  | noSuchProfile
deriving DecidableEq, Repr

/-- An operation if the bits outside its fields are zero, else the word is reserved (R90, R95). -/
def whenClear (clear : Bool) (i : Instr) : Except Reserved Instr := if clear then .ok i else .error .strayBit

/-- The operation a word spells by its format alone (R91, R92): what the opcode table says, which knows no NPROF. -/
def decodeWord (w : Word) : Except Reserved Instr :=
  match (w.extractLsb' 28 4).toNat with
  | 0x1 => whenClear (w.extractLsb' 1 27 == 0#27) (.setdir (directionOfBit (w.extractLsb' 0 1)))
  | 0x2 => whenClear (w.extractLsb' 8 20 == 0#20) (.buswr (w.extractLsb' 0 8))
  | 0x3 => whenClear (w.extractLsb' 0 28 == 0#28) .busrd
  | 0x4 => whenClear (w.extractLsb' 3 25 == 0#25)
      (.setctl (w.extractLsb' 2 1) (w.extractLsb' 1 1) (w.extractLsb' 0 1))
  | 0x5 => whenClear (w.extractLsb' 0 28 == 0#28) .pulse
  | 0x6 => whenClear (w.extractLsb' 16 12 == 0#12) (.wait (w.extractLsb' 0 16))
  | 0x7 => whenClear (w.extractLsb' 13 15 == 0#15) (.wrreg (w.extractLsb' 8 5) (w.extractLsb' 0 8))
  | 0x8 => whenClear (w.extractLsb' 13 15 == 0#15 && w.extractLsb' 0 8 == 0#8) (.rdreg (w.extractLsb' 8 5))
  | 0x9 => whenClear (w.extractLsb' 1 27 == 0#27) (.setmode (videoModeOfBit (w.extractLsb' 0 1)))
  | 0xA => whenClear (w.extractLsb' 0 28 == 0#28) .resetpat
  | 0xB => whenClear (w.extractLsb' 1 27 == 0#27) (.fillplane (planeOfBit (w.extractLsb' 0 1)))
  | 0xC => whenClear (w.extractLsb' 0 28 == 0#28) .iter
  | 0xD => whenClear (w.extractLsb' 8 20 == 0#20) (.applyprof (w.extractLsb' 0 8))
  | 0xE => whenClear (w.extractLsb' 8 20 == 0#20) (.verifyprof (w.extractLsb' 0 8))
  | 0xF => whenClear (w.extractLsb' 17 11 == 0#11) (.serve (w.extractLsb' 0 14) (w.extractLsb' 14 3))
  | _ => .error .opZero

/-- The block's decoder: a word that spells an operation of this configuration, or why it is reserved (R95). -/
def decode (c : Config) (w : Word) : Except Reserved Instr :=
  match decodeWord w with
  | .ok i => if i.wellFormed c then .ok i else .error .noSuchProfile
  | .error r => .error r

/-- The operation in a row of the opcode table whose bits are `w`, bit 0 the least significant (R96: every word is
32 bits). DESIGN CHOICE (log entry 22; safe): a table word has no NPROF beside it, so this reads the format alone. -/
def decodeTableWord (nbits w : Nat) : Option Instr :=
  let bits := w % 2 ^ nbits
  if bits < 2 ^ 32 then
    match decodeWord (BitVec.ofNat 32 bits) with
    | .ok i => some i
    | .error _ => none
  else none

/-! ### Encoding -/

/-- The word of an operation, field by field from bit 31 down (R91, R92). -/
def encode : Instr → Word
  | .setdir d => 0x1#4 ++ 0#27 ++ bitOfDirection d
  | .buswr v => 0x2#4 ++ 0#20 ++ v
  | .busrd => 0x3#4 ++ 0#28
  | .setctl ncs rs rw => 0x4#4 ++ 0#25 ++ ncs ++ rs ++ rw
  | .pulse => 0x5#4 ++ 0#28
  | .wait n => 0x6#4 ++ 0#12 ++ n
  | .wrreg idx v => 0x7#4 ++ 0#15 ++ idx ++ v
  | .rdreg idx => 0x8#4 ++ 0#15 ++ idx ++ 0#8
  | .setmode m => 0x9#4 ++ 0#27 ++ bitOfVideoMode m
  | .resetpat => 0xA#4 ++ 0#28
  | .fillplane pl => 0xB#4 ++ 0#27 ++ bitOfPlane pl
  | .iter => 0xC#4 ++ 0#28
  | .applyprof p => 0xD#4 ++ 0#20 ++ p
  | .verifyprof p => 0xE#4 ++ 0#20 ++ p
  | .serve a row => 0xF#4 ++ 0#11 ++ row ++ a

/-! ### The opcode table (R92) -/

/-- A row of the operation map: its format's mask of fixed bits (R91) and its match value (R92). -/
structure OpcodeRow where
  mnemonic : String
  mask : Word
  value : Word
deriving DecidableEq, Repr

/-- The operation map of R92 with the masks of R91, op 0x1 first. -/
def opcodeRows : List OpcodeRow :=
  [⟨"SETDIR", 0xFFFFFFFE#32, 0x10000000#32⟩, ⟨"BUSWR", 0xFFFFFF00#32, 0x20000000#32⟩,
   ⟨"BUSRD", 0xFFFFFFFF#32, 0x30000000#32⟩, ⟨"SETCTL", 0xFFFFFFF8#32, 0x40000000#32⟩,
   ⟨"PULSE", 0xFFFFFFFF#32, 0x50000000#32⟩, ⟨"WAIT", 0xFFFF0000#32, 0x60000000#32⟩,
   ⟨"WRREG", 0xFFFFE000#32, 0x70000000#32⟩, ⟨"RDREG", 0xFFFFE0FF#32, 0x80000000#32⟩,
   ⟨"SETMODE", 0xFFFFFFFE#32, 0x90000000#32⟩, ⟨"RESETPAT", 0xFFFFFFFF#32, 0xA0000000#32⟩,
   ⟨"FILLPLANE", 0xFFFFFFFE#32, 0xB0000000#32⟩, ⟨"ITER", 0xFFFFFFFF#32, 0xC0000000#32⟩,
   ⟨"APPLYPROF", 0xFFFFFF00#32, 0xD0000000#32⟩, ⟨"VERIFYPROF", 0xFFFFFF00#32, 0xE0000000#32⟩,
   ⟨"SERVE", 0xFFFE0000#32, 0xF0000000#32⟩]

/-- `w` matches a row when `(w & mask) == match` (R92). -/
def OpcodeRow.accepts (r : OpcodeRow) (w : Word) : Bool := w &&& r.mask == r.value

/-- The table's name of an operation (R92, R98). -/
def mnemonicOf : Instr → String
  | .setdir _ => "SETDIR"
  | .buswr _ => "BUSWR"
  | .busrd => "BUSRD"
  | .setctl _ _ _ => "SETCTL"
  | .pulse => "PULSE"
  | .wait _ => "WAIT"
  | .wrreg _ _ => "WRREG"
  | .rdreg _ => "RDREG"
  | .setmode _ => "SETMODE"
  | .resetpat => "RESETPAT"
  | .fillplane _ => "FILLPLANE"
  | .iter => "ITER"
  | .applyprof _ => "APPLYPROF"
  | .verifyprof _ => "VERIFYPROF"
  | .serve _ _ => "SERVE"

end Sys2Proof
end

