-- ==== Sys2Proof/Machine/State.lean ====
section
/-! DEFINITION. The state of the block (10_state R25 to R43), the reasons a step can stop, and the state after reset
(R53, 70_reset R215). -/

namespace Sys2Proof.Machine

/-! ### Memory -/

/-- The written cells of a plane: (address, byte) pairs (R34, R35). An address with no pair holds no value, the
spec's `none`. -/
abbrev Memory := List Host.Cell

/-- The canonical form: addresses strictly rising. An unlisted address reads as no value, so no pair can repeat it
(log entry 17). -/
abbrev Memory.wf (m : Memory) : Prop := m.Pairwise (fun c d => c.1 < d.1)

/-! ### Line events -/

/-- A line event (R72). -/
inductive LineEvent where
  /-- `Dir(d)`, from SETDIR. -/
  | dir (d : Direction)
  /-- `Data(v)`, from BUSWR. -/
  | data (v : Byte)
  /-- `Ctl(ncs, rs, rw)`, from SETCTL. -/
  | ctl (ncs rs rw : Bit)
  /-- `Strobe(e)`, from PULSE. -/
  | strobe (e : Bit)
  /-- `Delay(n)`, from WAIT: at least `n` time-units pass. -/
  | delay (n : Nat)
  /-- `BusRead(v)`, from BUSRD: an input; no line changes. -/
  | busRead (v : Byte)
  /-- `AddrSample(raw)`, from ITER: an input; no line changes. -/
  | addrSample (raw : Word)
deriving DecidableEq, Repr

/-! ### Loop, register access and sequencer -/

/-- The response loop's state (R38). -/
inductive LoopState where
  | idle
  | serving
deriving DecidableEq, Repr

/-- Which way a register access goes (R39). -/
inductive TxnDir where
  | write
  | read
deriving DecidableEq, Repr

/-- The register access in progress (R39). -/
structure BusTransaction where
  index : BitVec 5
  dir : TxnDir
  value : Byte
  step : Nat
deriving DecidableEq, Repr

/-- The top-level sequencer phase (R40). -/
inductive SeqPhase where
  | startup
  | loop
deriving DecidableEq, Repr

/-! ### Reasons -/

/-- The spec's two model-only faults, each with the info recorded beside it (R195). MemRead raises one inside SERVE
and records it in `State.faults`; the block goes on (R195, R201). No step ever ENDS in a fault, so `Outcome.fault` is
never answered; that is the spec's own statement and neither a safe nor an unsafe difference. -/
inductive Fault where
  /-- Code 1, raised by MemRead: the address is at or beyond the plane's size and OOR_POLICY is Fault. Safe: the byte
  is a free value. -/
  | outOfRangeAddress (space : Plane) (a : Nat)
  /-- Code 2, raised by MemRead: nothing has written the cell. Safe: the byte is a free value. -/
  | uninitRead (space : Plane) (a : Nat)
deriving DecidableEq, Repr

/-- Why a configuration has no meaning (R199). -/
inductive ConfigProblem where
  | strobeHighTooShort
  | strobeLowTooShort
  | maskTooNarrow
  | charPlaneSize
  | pixelPlaneSize
  | noProfile
  | noInitialProfile
deriving DecidableEq, Repr

/-- Why a step has no meaning (R199). -/
inductive Refusal where
  /-- Raised by `exec` for an operation with no meaning yet; no arm uses it. Safe. -/
  | notModelled (mnemonic : String)
  /-- Raised by `step` for a reserved operation word (R95). Safe: such a word spells no operation. -/
  | reservedWord (why : Reserved) (w : Word)
  /-- Raised by APPLYPROF and VERIFYPROF for a profile number that is not below NPROF (R95). Safe: no such
  operation exists. -/
  | noSuchProfile (p : BitVec 8)
  /-- Raised by `step` in a state whose configuration is ill-formed (R199). Safe: no such machine exists. -/
  | illFormedConfig (why : ConfigProblem)
deriving DecidableEq, Repr

/-! ### State -/

/-- The model's own record of what the environment will answer (R44) and of the operation words a harness has queued
(95_test_vectors Part 3). Each list is next first. A read of an empty list takes a free value (log entries 7, 8). -/
structure Inputs where
  /-- What `Sample()` will return. -/
  samples : List Word
  /-- What `BusIn()` will return. -/
  busIns : List Byte
  /-- The host's schedule of the loop's passes (R185). -/
  passes : List Pass
  /-- The contents of the next bare FILLPLANE operations (R150). -/
  fills : List (List Byte)
  /-- The operation words of a harness program. -/
  ops : List Word
  /-- How many free values have been taken. -/
  draws : Nat
deriving DecidableEq, Repr

/-- Nothing given, `n` free values taken. -/
def Inputs.none (n : Nat) : Inputs := ⟨[], [], [], [], [], n⟩

/-- The record S of R25, with the configuration it runs under and the model's own `inputs`. -/
structure State where
  cfg : Config
  /-- DIR (R26). -/
  dir : Direction
  /-- DOUT (R27). -/
  dout : Byte
  /-- NCS (R29). -/
  ncs : Bit
  /-- RS (R30). -/
  rs : Bit
  /-- RW (R31). -/
  rw : Bit
  /-- E (R32). -/
  e : Bit
  /-- MODE (R33). -/
  mode : VideoMode
  /-- CPLANE (R34). -/
  cplane : Memory
  /-- PPLANE (R35). -/
  pplane : Memory
  /-- PREV (R36). -/
  prev : Word
  /-- PREV_VALID (R37). -/
  prevValid : Bool
  /-- LSTATE (R38). -/
  lstate : LoopState
  /-- TXN (R39). -/
  txn : Option BusTransaction
  /-- SEQ (R40). -/
  seq : SeqPhase
  /-- VERIFY_RESULT (R41). -/
  verifyResult : Option (BitVec 16)
  /-- FAULTS (R42), a set: no repeats, in the order recorded (log entry 12). -/
  faults : List Fault
  /-- EVENTS (R43), oldest first. -/
  events : List LineEvent
  inputs : Inputs
deriving DecidableEq, Repr

/-- How a step of the block ends. -/
abbrev Result := Host.Outcome State Fault Refusal

/-- The reset table (R53, R215) under a configuration. DOUT is a draw (R27) and PREV is unspecified (R36): both are
the free values numbered `inputs.draws` (log entries 5, 6). The environment's inputs are not the block's state and
stand as they were (log entry 20). -/
def State.resetFrom (cfg : Config) (inputs : Inputs) : State where
  cfg := cfg
  dir := .input
  dout := Config.freeByte inputs.draws
  ncs := 1#1
  rs := 0#1
  rw := 1#1
  e := 0#1
  mode := cfg.resetMode
  cplane := []
  pplane := []
  prev := Config.freeSnapshot inputs.draws
  prevValid := false
  lstate := .idle
  txn := none
  seq := .startup
  verifyResult := none
  faults := []
  events := []
  inputs := { inputs with draws := inputs.draws + 1 }

/-- The machine right after reset, with nothing given by the environment yet (log entries 2, 3, 4, 7, 8). -/
def State.reset : State := State.resetFrom Config.deployed (Inputs.none 0)

end Sys2Proof.Machine
end

