-- ==== Sys2Proof/Machine/Ops.lean ====
section
/-! DEFINITION. The named operations over memory, lines, inputs and faults that the meanings share. -/

namespace Sys2Proof.Machine

/-! ### Memory (20_memory R61, R64) -/

/-- The byte of a cell, or `none` if nothing has written it. -/
def Memory.read : Memory → Nat → Option Byte
  | [], _ => none
  | c :: m, a => if c.1 = a then some c.2 else Memory.read m a

/-- One cell written, the others kept, in the canonical form (R64). -/
def Memory.write : Memory → Nat → Byte → Memory
  | [], a, v => [(a, v)]
  | c :: m, a, v => if a < c.1 then (a, v) :: c :: m else if a = c.1 then (a, v) :: m else c :: Memory.write m a v

/-- The cells `a` to `a + n - 1` with the bytes `f` gives them. -/
def cellsFrom (f : Nat → Byte) : Nat → Nat → Memory
  | 0, _ => []
  | n + 1, a => (a, f a) :: cellsFrom f n (a + 1)

/-- Every cell from 0 to `size - 1` written in turn (R144, R150). Laws/Memory.lean proves it the fold of single
writes. -/
def Memory.writeAll (m : Memory) (size : Nat) (f : Nat → Byte) : Memory :=
  cellsFrom f size 0 ++ m.filter (fun c => decide (size ≤ c.1))

/-- The cells of a plane (R55). -/
def State.plane (s : State) : Plane → Memory
  | .char => s.cplane
  | .pix => s.pplane

/-- A plane's cells replaced. -/
def State.setPlane (s : State) (pl : Plane) (m : Memory) : State :=
  match pl with
  | .char => { s with cplane := m }
  | .pix => { s with pplane := m }

/-- MemWrite at every address of a plane (R64): the only way a plane is written (R151). -/
def State.fillPlane (s : State) (pl : Plane) (f : Nat → Byte) : State :=
  s.setPlane pl ((s.plane pl).writeAll (s.cfg.planeSize pl) f)

/-! ### Events and inputs -/

/-- An event appended to the history (R43, R72). -/
def State.emit (s : State) (ev : LineEvent) : State := { s with events := s.events ++ [ev] }

/-- The inputs replaced. -/
def State.setInputs (s : State) (i : Inputs) : State := { s with inputs := i }

/-- An unconstrained byte (`draw Byte`, R19). -/
def State.draw (s : State) : Byte × State :=
  (Config.freeByte s.inputs.draws, s.setInputs { s.inputs with draws := s.inputs.draws + 1 })

/-- `Sample()` (R19, R44): the next snapshot the environment gives. -/
def State.takeSample (s : State) : Word × State :=
  match s.inputs.samples with
  | raw :: rest => (raw, s.setInputs { s.inputs with samples := rest })
  | [] => (Config.freeSnapshot s.inputs.draws, s.setInputs { s.inputs with draws := s.inputs.draws + 1 })

/-- `BusIn()` (R19, R44): the byte the data lines carry. -/
def State.takeBusIn (s : State) : Byte × State :=
  match s.inputs.busIns with
  | v :: rest => (v, s.setInputs { s.inputs with busIns := rest })
  | [] => s.draw

/-- What the host's schedule makes of this pass (R183, R185). -/
def State.takePass (s : State) : Pass × State :=
  match s.inputs.passes with
  | p :: rest => (p, s.setInputs { s.inputs with passes := rest })
  | [] => (Config.freePass s.inputs.draws, s.setInputs { s.inputs with draws := s.inputs.draws + 1 })

/-- The contents of a fill (R150): the host's bytes, and a free byte for a cell they do not reach (log entry 10). -/
def fillContents (given : List Byte) (n i : Nat) : Byte := (given[i]?).getD (Config.freeFill n i)

/-- The contents the host supplies beside a bare FILLPLANE operation (R150). -/
def State.takeFill (s : State) : List Byte × State :=
  match s.inputs.fills with
  | c :: rest => (c, s.setInputs { s.inputs with fills := rest })
  | [] => ([], s)

/-- The next operation word of a harness program, if one is queued (log entry 8). -/
def State.takeOp (s : State) : Option (Word × State) :=
  match s.inputs.ops with
  | w :: rest => some (w, s.setInputs { s.inputs with ops := rest })
  | [] => none

/-- `w` queued in front of the harness program. -/
def State.pushOp (s : State) (w : Word) : State := s.setInputs { s.inputs with ops := w :: s.inputs.ops }

/-- A reset from outside (R215, R217): the reset table, nothing of the block surviving; what the environment will give
is the environment's own and stands (log entry 20). No step performs it. -/
def State.resetNow (s : State) : State := State.resetFrom s.cfg s.inputs

/-! ### Faults and refusals -/

/-- `raise Fault(kind, info)` (R19, R195): taking an exception on this block. The fault joins FAULTS, a set; nothing is
saved, masked or entered (R201), and no step clears it. There is no return from it (R202). -/
def State.recordFault (s : State) (f : Fault) : State :=
  if f ∈ s.faults then s else { s with faults := s.faults ++ [f] }

/-- The first reason a configuration has no meaning (R118, R159, R199). -/
def configProblem (c : Config) : Option ConfigProblem :=
  if c.tEH < 1 then some .strobeHighTooShort
  else if c.tEL < 1 then some .strobeLowTooShort
  else if c.cmpMask &&& 0x0001FFFF#32 ≠ 0x0001FFFF#32 then some .maskTooNarrow
  else if c.charPlaneSize < 1 ∨ 16384 < c.charPlaneSize then some .charPlaneSize
  else if c.pixelPlaneSize < 1 ∨ 16384 < c.pixelPlaneSize then some .pixelPlaneSize
  else if c.profiles.isEmpty then some .noProfile
  else if c.nprof ≤ c.initialProfile then some .noInitialProfile
  else none

/-! ### Lines (40_transceiver, 41_register_protocol) -/

/-- What the data lines carry while the block drives them (R28); `none` while the environment does. -/
def State.drivenByte (s : State) : Option Byte :=
  match s.dir with
  | .output => some s.dout
  | .input => none

/-- SETDIR (R106): all eight lines at once; DOUT stands (R107). -/
def State.setDirection (s : State) (d : Direction) : State := ({ s with dir := d }).emit (.dir d)

/-- BUSWR (R108): all eight bits of the latch at once; DIR stands. -/
def State.busWrite (s : State) (v : Byte) : State := ({ s with dout := v }).emit (.data v)

/-- BUSRD (R110): the environment's byte while DIR is input, an unconstrained byte while the block drives (R111). -/
def State.busRead (s : State) : Byte × State :=
  let r := match s.dir with
    | .input => s.takeBusIn
    | .output => s.draw
  (r.1, r.2.emit (.busRead r.1))

/-- SETCTL (R115): the three control lines in one update. -/
def State.setCtl (s : State) (ncs rs rw : Bit) : State :=
  ({ s with ncs := ncs, rs := rs, rw := rw }).emit (.ctl ncs rs rw)

/-- One edge of the enable line, inside PULSE (R116). -/
def State.setEnable (s : State) (e : Bit) : State := ({ s with e := e }).emit (.strobe e)

/-- WAIT (R117): only the lower bound `n` is recorded. -/
def State.delay (s : State) (n : Nat) : State := s.emit (.delay n)

/-- PULSE (R116): high for T_EH, then the falling edge, then low for T_EL (R118). -/
def State.pulse (s : State) : State :=
  (((s.setEnable 1#1).delay s.cfg.tEH).setEnable 0#1).delay s.cfg.tEL

/-! ### The register access in progress (10_state R39) -/

/-- TXN replaced. -/
def State.setTxn (s : State) (t : Option BusTransaction) : State := { s with txn := t }

/-- TXN at its step `k` (R120, R125). -/
def State.atStep (s : State) (k : Nat) : State := s.setTxn (s.txn.map fun t => { t with step := k })

/-- TXN with the byte a read has sampled (R125 step 9). -/
def State.withTxnValue (s : State) (v : Byte) : State := s.setTxn (s.txn.map fun t => { t with value := v })

/-! ### Loop and sequencer state -/

/-- MODE replaced (R141). -/
def State.setMode (s : State) (m : VideoMode) : State := { s with mode := m }

/-- LSTATE replaced (R160). -/
def State.setLoop (s : State) (l : LoopState) : State := { s with lstate := l }

/-- The served key recorded as the previous sample (R160). -/
def State.recordSample (s : State) (key : Word) : State := { s with prev := key, prevValid := true }

/-- SEQ replaced (R183). -/
def State.setSeq (s : State) (q : SeqPhase) : State := { s with seq := q }

/-- VERIFY_RESULT replaced (R180). -/
def State.setVerify (s : State) (mask : BitVec 16) : State := { s with verifyResult := some mask }

end Sys2Proof.Machine
end

