-- ==== Sys2Proof/Machine/Operands.lean ====
section
/-! DEFINITION. The operand forms: snapshot fields, the driven index byte, pattern bytes, the glyph index and the
address a plane read resolves to. -/

namespace Sys2Proof.Machine

/-- addr = raw[13:0] (R81). -/
def snapshotAddr (raw : Word) : BitVec 14 := raw.extractLsb' 0 14

/-- row = raw[16:14] (R81). -/
def snapshotRow (raw : Word) : BitVec 3 := raw.extractLsb' 14 3

/-- The snapshot of a pair, upper bits zero (R83). -/
def snapshotOf (a : BitVec 14) (row : BitVec 3) : Word := row.setWidth 32 <<< 14 ||| a.setWidth 32

/-- The byte driven in an address phase: zext_8(index & 0x1F) (R87). -/
def indexByte (idx : BitVec 5) : Byte := idx.setWidth 8 &&& 0x1F#8

/-- Glyph index c * 8 + row (R154), never out of GLYPH_ROM's range. -/
def glyphIndex (c : Byte) (row : BitVec 3) : Fin 2048 :=
  ⟨c.toNat * 8 + row.toNat, by have hc := c.isLt; have hr := row.isLt; omega⟩

/-- MemRead(GLYPH, i, 1) = GLYPH_ROM[i] (R58). -/
def glyphRead (c : Config) (i : Fin 2048) : Byte := c.glyphRom[i]

/-- RESETPAT's character byte: 0x20 + (i mod 96) (R17, R144). -/
def charPattern (i : Nat) : Byte := BitVec.ofNat 8 (0x20 + i % 96)

/-- RESETPAT's pixel byte: i mod 256 (R144). -/
def pixelPattern (i : Nat) : Byte := BitVec.ofNat 8 (i % 256)

/-- The pattern of a plane (R144). -/
def planePattern : Plane → Nat → Byte
  | .char => charPattern
  | .pix => pixelPattern

/-- The cell a plane read at `a` goes to, or `none` where the read is out of range and no policy moves it (R61, R63). -/
def resolveAddress (policy : OorPolicy) (size a : Nat) : Option Nat :=
  if a < size then some a
  else match policy with
    | .fault => none
    | .wrap => some (a % size)
    | .clamp => some (size - 1)

/-- MemRead(space, a, 1) for CHAR and PIX (R61): the range check first, then the cell (R200). -/
def State.memRead (s : State) (pl : Plane) (a : Nat) : Byte × State :=
  match resolveAddress s.cfg.oorPolicy (s.cfg.planeSize pl) a with
  | none => (s.recordFault (.outOfRangeAddress pl a)).draw
  | some cell =>
    match (s.plane pl).read cell with
    | some v => (v, s)
    | none => (s.recordFault (.uninitRead pl cell)).draw

/-- Profile `p`, if the configuration has it (R93, R179). -/
def profileAt (c : Config) (p : Nat) : Option Profile := c.profiles[p]?

/-- The command a character stands for (R99). -/
def commandOfCharacter (c : Config) (b : Byte) : Option Command := (c.cmdTable.find? fun e => e.1 = b).map (·.2)

/-- The controller's 5-bit index of profile register `r` (R175). -/
def profileRegIndex (r : Fin 16) : BitVec 5 := BitVec.ofNat 5 r.val

end Sys2Proof.Machine
end

