-- ==== Sys2Proof/Machine/ModeBuffer.lean ====
section
/-! DEFINITION. Mode and buffer operations: SETMODE, RESETPAT, FILLPLANE (42_mode_buffer). None emits an event. -/

namespace Sys2Proof.Machine

/-- resetPattern() (R144): both planes, CHAR first. -/
def State.resetPattern (s : State) : State := (s.fillPlane .char charPattern).fillPlane .pix pixelPattern

/-- A fill of plane `pl` with the contents the host gives (R150). Each fill may draw its own free bytes. -/
def State.fillWith (s : State) (pl : Plane) (given : List Byte) : State :=
  (s.fillPlane pl (fillContents given s.inputs.draws)).setInputs { s.inputs with draws := s.inputs.draws + 1 }

/-- SETMODE m (R141 to R143). -/
def execSetmode (m : VideoMode) (s : State) : Result := .next (s.setMode m)

/-- RESETPAT (R144 to R148). -/
def execResetpat (s : State) : Result := .next s.resetPattern

/-- FILLPLANE pl (R150), the contents an input. -/
def execFillplane (pl : Plane) (s : State) : Result := .next (s.takeFill.2.fillWith pl s.takeFill.1)

end Sys2Proof.Machine
end

