-- ==== Sys2Proof/Machine/Flags.lean ====
section
/-! DEFINITION. The block has no condition flags (10_state R47). Its status computations are the change detector
(PREV, PREV_VALID) and the verify mask (VERIFY_RESULT); the fault bits are `State.recordFault` in Ops.lean. -/

namespace Sys2Proof.Machine

/-- The masked snapshot that change detection compares (R158). -/
def changeKey (c : Config) (raw : Word) : Word := raw &&& c.cmpMask

/-- changed = (PREV_VALID = 0) or (key != PREV) (R158). -/
def State.changed (s : State) (raw : Word) : Bool := !s.prevValid || changeKey s.cfg raw != s.prev

/-- The verify mask after register `r` read back `got` where `want` was written (R180). -/
def verifyMask (mask : BitVec 16) (r : Fin 16) (want got : Byte) : BitVec 16 :=
  if got = want then mask else mask ||| (1#16 <<< r.val)

/-- The profile registers VERIFYPROF reads back, ascending (R180). -/
def readableRegs (c : Config) : List (Fin 16) :=
  (List.finRange 16).filter fun r => c.readable.contains (profileRegIndex r)

end Sys2Proof.Machine
end

