-- ==== Sys2Proof/Machine/Protocol.lean ====
section
/-! DEFINITION. The register protocol engine: SETCTL, PULSE, WAIT, WRREG, RDREG (41_register_protocol). -/

namespace Sys2Proof.Machine

/-- SETCTL ncs,rs,rw (R115). -/
def execSetctl (ncs rs rw : Bit) (s : State) : Result := .next (s.setCtl ncs rs rw)

/-- PULSE (R116). -/
def execPulse (s : State) : Result := .next s.pulse

/-- WAIT n (R117). -/
def execWait (n : BitVec 16) (s : State) : Result := .next (s.delay n.toNat)

/-- Steps (1) to (5) of a register access: the address phase (R119, R120, R125). RS keeps its level at step (2). -/
def State.addressPhase (s : State) (idx : BitVec 5) : State :=
  let s1 := (s.atStep 1).setDirection .output
  let s2 := (s1.atStep 2).setCtl 0#1 s1.rs 0#1
  let s3 := (s2.atStep 3).setCtl 0#1 0#1 0#1
  let s4 := (s3.atStep 4).busWrite (indexByte idx)
  (s4.atStep 5).pulse

/-- writeRegister(index, value) (R120). -/
def State.writeRegister (s : State) (idx : BitVec 5) (v : Byte) : State :=
  let s5 := (s.setTxn (some ⟨idx, .write, v, 1⟩)).addressPhase idx
  let s6 := (s5.atStep 6).setCtl 0#1 1#1 0#1
  let s7 := (s6.atStep 7).busWrite v
  let s8 := (s7.atStep 8).pulse
  let s9 := (s8.atStep 9).setCtl 1#1 1#1 0#1
  s9.setTxn none

/-- readRegister(index) (R125): the bus is an input before the controller is asked to drive it (R128), and is sampled
after E has fallen. -/
def State.readRegister (s : State) (idx : BitVec 5) : Byte × State :=
  let s5 := (s.setTxn (some ⟨idx, .read, 0#8, 1⟩)).addressPhase idx
  let s6 := (s5.atStep 6).setDirection .input
  let s7 := (s6.atStep 7).setCtl 0#1 1#1 1#1
  let s8 := (s7.atStep 8).pulse
  let r := (s8.atStep 9).busRead
  let s9 := r.2.withTxnValue r.1
  let s10 := (s9.atStep 10).setCtl 1#1 1#1 1#1
  (r.1, s10.setTxn none)

/-- WRREG idx,v (R120 to R122). -/
def execWrreg (idx : BitVec 5) (v : Byte) (s : State) : Result := .next (s.writeRegister idx v)

/-- RDREG idx (R125 to R127): the byte returned is the one its event records (log entry 13). -/
def execRdreg (idx : BitVec 5) (s : State) : Result := .next (s.readRegister idx).2

end Sys2Proof.Machine
end

