-- ==== Sys2Proof/Machine/Profiles.lean ====
section
/-! DEFINITION. The profile selector: APPLYPROF, VERIFYPROF (44_profile_sequencer R175 to R181). -/

namespace Sys2Proof.Machine

/-- applyProfile (R175): registers 0 to 15, ascending, never reordered (R177). -/
def State.applyProfile (s : State) (prof : Profile) : State :=
  (List.finRange 16).foldl (fun s r => s.writeRegister (profileRegIndex r) prof[r]) s

/-- The read-back of VERIFYPROF over the registers `rs` (R180): the mismatch mask, and the state after. -/
def State.readBack (s : State) (prof : Profile) : List (Fin 16) → BitVec 16 → BitVec 16 × State
  | [], mask => (mask, s)
  | r :: rs, mask =>
    let got := s.readRegister (profileRegIndex r)
    got.2.readBack prof rs (verifyMask mask r prof[r] got.1)

/-- The verification pass (R180). -/
def State.verifyProfile (s : State) (prof : Profile) : State :=
  let r := (s.applyProfile prof).readBack prof (readableRegs s.cfg) 0#16
  r.2.setVerify r.1

/-- APPLYPROF p (R175). A profile number at or above NPROF spells no operation (R95; log entry 15). -/
def execApplyprof (p : BitVec 8) (s : State) : Result :=
  match profileAt s.cfg p.toNat with
  | some prof => .next (s.applyProfile prof)
  | none => .refused (.noSuchProfile p)

/-- VERIFYPROF p (R180, R181), refused as APPLYPROF is. -/
def execVerifyprof (p : BitVec 8) (s : State) : Result :=
  match profileAt s.cfg p.toNat with
  | some prof => .next (s.verifyProfile prof)
  | none => .refused (.noSuchProfile p)

end Sys2Proof.Machine
end

