-- ==== Sys2Proof/Machine/ResponseLoop.lean ====
section
/-! DEFINITION. The address-to-output byte multiplexer, SERVE and ITER (43_response_loop). -/

namespace Sys2Proof.Machine

/-- The multiplexer (R155). In CharacterMode a drawn character index still goes through the glyph table (R157); in
PixelMode the row is not used (R156). -/
def State.mux (s : State) (a : BitVec 14) (row : BitVec 3) : Byte × State :=
  match s.mode with
  | .characterMode =>
    let r := s.memRead .char a.toNat
    (glyphRead s.cfg (glyphIndex r.1 row), r.2)
  | .pixelMode => s.memRead .pix a.toNat

/-- serve(a, row) (R164): the byte goes out through BUSWR, whatever MemRead recorded. -/
def State.serve (s : State) (a : BitVec 14) (row : BitVec 3) : State := (s.mux a row).2.busWrite (s.mux a row).1

/-- One iteration of the response loop on the snapshot `raw` (R160). -/
def State.respond (s : State) (raw : Word) : State :=
  let s1 := s.emit (.addrSample raw)
  if s1.changed raw then
    let s2 := (s1.setLoop .serving).serve (snapshotAddr raw) (snapshotRow raw)
    (s2.recordSample (changeKey s.cfg raw)).setLoop .idle
  else s1

/-- ITER (R160 to R163). -/
def execIter (s : State) : Result := .next (s.takeSample.2.respond s.takeSample.1)

/-- SERVE a,row (R164, R165). -/
def execServe (a : BitVec 14) (row : BitVec 3) (s : State) : Result := .next (s.serve a row)

end Sys2Proof.Machine
end

