-- ==== Sys2Proof/Machine/Transceiver.lean ====
section
/-! DEFINITION. The bus transceiver: SETDIR, BUSWR, BUSRD (40_transceiver). "No error conditions" (R105, R112): each
meaning answers a next state in every state, writes no flag (there is none, 10_state R47) and records no fault. -/

namespace Sys2Proof.Machine

/-- SETDIR d (R106). -/
def execSetdir (d : Direction) (s : State) : Result := .next (s.setDirection d)

/-- BUSWR v (R108). -/
def execBuswr (v : Byte) (s : State) : Result := .next (s.busWrite v)

/-- BUSRD (R110, R111): the byte returned is the one its event records (log entry 13). -/
def execBusrd (s : State) : Result := .next s.busRead.2

end Sys2Proof.Machine
end

