-- ==== Sys2Proof/Machine/Sequencer.lean ====
section
/-! DEFINITION. The top-level sequencer and command dispatch (44_profile_sequencer R182 to R191; 70_reset R216). -/

namespace Sys2Proof.Machine

/-- Startup (R183, R216): the initial profile, the loop's direction (R184), then Loop. -/
def startUp (s : State) : Result :=
  match profileAt s.cfg s.cfg.initialProfile with
  | some prof => .next (((s.applyProfile prof).setDirection .output).setSeq .loop)
  | none => .refused (.illFormedConfig .noInitialProfile)

/-- SETDIR 1 after a command that ran a register access (R184). -/
def thenDriveBus : Result → Result
  | .next s => .next (s.setDirection .output)
  | .fault f => .fault f
  | .refused r => .refused r

/-- Command dispatch (R186). A SetMode or ResetPattern programs nothing (R187). -/
def runCommand (s : State) : Command → Result
  | .setMode m => execSetmode m s
  | .resetPattern => execResetpat s
  | .fill pl contents => .next (s.fillWith pl contents)
  | .applyProfile p => thenDriveBus (execApplyprof p s)
  | .verifyProfile p => thenDriveBus (execVerifyprof p s)

/-- A poll: at most one token, and none is no error (R185). -/
def poll (s : State) : Option Command → Result
  | some c => runCommand s c
  | none => .next s

/-- One pass of the loop (R183): an ITER or a poll, as the host's schedule has it. -/
def loopPass (s : State) : Result :=
  match s.takePass.1 with
  | .iter => execIter s.takePass.2
  | .poll token => poll s.takePass.2 token
  | .character b => poll s.takePass.2 (commandOfCharacter s.cfg b)

/-- What the block does on its own (R182, R183). -/
def runSequencer (s : State) : Result :=
  match s.seq with
  | .startup => startUp s
  | .loop => loopPass s

end Sys2Proof.Machine
end

