-- ==== Sys2Proof/Machine/Dispatch.lean ====
section
/-! DEFINITION. One arm per operation of the block. -/

namespace Sys2Proof.Machine

def exec (i : Instr) (s : State) : Host.Outcome State Fault Refusal :=
  match i with
  | .setdir d => Sys2Proof.Machine.execSetdir d s
  | .buswr v => Sys2Proof.Machine.execBuswr v s
  | .busrd => Sys2Proof.Machine.execBusrd s
  | .setctl ncs rs rw => Sys2Proof.Machine.execSetctl ncs rs rw s
  | .pulse => Sys2Proof.Machine.execPulse s
  | .wait n => Sys2Proof.Machine.execWait n s
  | .wrreg idx v => Sys2Proof.Machine.execWrreg idx v s
  | .rdreg idx => Sys2Proof.Machine.execRdreg idx s
  | .setmode m => Sys2Proof.Machine.execSetmode m s
  | .resetpat => Sys2Proof.Machine.execResetpat s
  | .fillplane pl => Sys2Proof.Machine.execFillplane pl s
  | .iter => Sys2Proof.Machine.execIter s
  | .applyprof p => Sys2Proof.Machine.execApplyprof p s
  | .verifyprof p => Sys2Proof.Machine.execVerifyprof p s
  | .serve a row => Sys2Proof.Machine.execServe a row s

end Sys2Proof.Machine
end

