-- ==== Sys2Proof/Machine/Step.lean ====
section
/-! DEFINITION. One step: an ill-formed configuration is refused (60_exceptions R199); a queued operation word is
decoded and run (95_test_vectors Part 3; 30_encoding R95); otherwise the sequencer goes on (44 R183). -/

namespace Sys2Proof.Machine

/-- One step of the block. -/
def step (s : State) : Host.Outcome State Fault Refusal :=
  match configProblem s.cfg with
  | some p => .refused (.illFormedConfig p)
  | none =>
    match s.takeOp with
    | some (w, s') =>
      match decode s.cfg w with
      | .ok i => exec i s'
      | .error why => .refused (.reservedWord why w)
    | none => runSequencer s

/-- `s` with the operation of `nbits` bits `w` queued as the next one `step` fetches (log entry 8). Every operation
word is 32 bits (R96); bits above `nbits` are 0. -/
def State.withFetchWord (s : State) (nbits w : Nat) : State := s.pushOp (BitVec.ofNat 32 (w % 2 ^ nbits))

end Sys2Proof.Machine
end

