-- ==== Sys2Proof/Machine/Controller.lean ====
section
/-! DEFINITION. The lines as the environment sees them (20_memory R72) and the reference model of the controller
(41_register_protocol R130 to R137). The controller is an environment agent, never part of the block (R8): no step
reads this file. All of it is a function of the line events, the only thing the block shows the controller (log
entry 16). -/

namespace Sys2Proof.Machine

/-! ### The lines -/

/-- The block's side of the bus and of the control lines. -/
structure LineView where
  dir : Direction
  dout : Byte
  ncs : Bit
  rs : Bit
  rw : Bit
  e : Bit
deriving DecidableEq, Repr

/-- The lines in a state. -/
def State.lines (s : State) : LineView := ⟨s.dir, s.dout, s.ncs, s.rs, s.rw, s.e⟩

/-- The lines after an event (R72). -/
def LineView.after (v : LineView) : LineEvent → LineView
  | .dir d => { v with dir := d }
  | .data b => { v with dout := b }
  | .ctl ncs rs rw => { v with ncs := ncs, rs := rs, rw := rw }
  | .strobe e => { v with e := e }
  | .delay _ => v
  | .busRead _ => v
  | .addrSample _ => v

/-- The lines after events. -/
def LineView.run (v : LineView) (evs : List LineEvent) : LineView := evs.foldl LineView.after v

/-- The data lines while the block drives them (R28); `none` while it does not. -/
def LineView.busByte (v : LineView) : Option Byte :=
  match v.dir with
  | .output => some v.dout
  | .input => none

/-- The line state of a read data phase, (0, 1, 1) (R85, R119). The controller drives in it only while E is high
(R133): `Controller.drives`. -/
def LineView.readPhase (v : LineView) : Bool := v.ncs == 0#1 && v.rs == 1#1 && v.rw == 1#1

/-- The line state of an address read, (0, 0, 1), which no operation strobes (R85, R86). -/
def LineView.addressRead (v : LineView) : Bool := v.ncs == 0#1 && v.rs == 0#1 && v.rw == 1#1

/-! ### The controller -/

/-- CTRL_AR and CTRL_R (R130); `none` is unknown. NCTRLREG = 18 (R10): sixteen writable registers and two light-pen
registers. -/
structure Controller where
  ar : Option (BitVec 5)
  regs : Vector (Option Byte) 18
deriving DecidableEq, Repr

/-- Nothing is known of a controller the block has not written (R54, R130). -/
def Controller.unknown : Controller := ⟨none, Vector.replicate 18 none⟩

/-- Registers 0 to 15 unknown, 16 and 17 as they were. -/
def Controller.forgetWritable (c : Controller) : Controller :=
  { c with regs := Vector.ofFn fun (i : Fin 18) => if i.val < 16 then none else c.regs[i] }

/-- A data write (R132): 0 to 15 take the byte (an unknown one makes the register unknown), 16 to 31 change nothing.
With the address register unknown, any of registers 0 to 15 may have changed (log entry 16). -/
def Controller.dataWrite (c : Controller) (d : Option Byte) : Controller :=
  match c.ar with
  | none => c.forgetWritable
  | some i => if h : i.toNat < 16 then { c with regs := c.regs.set i.toNat d (by omega) } else c

/-- What the controller latches at E's falling edge (R131, R132); nothing while it is deselected (R134). DESIGN CHOICE
(log entry 25; unsafe): nothing in an address read (0, 0, 1) either, where R86 leaves the controller open. -/
def Controller.latch (c : Controller) (v : LineView) : Controller :=
  if v.ncs = 0#1 ∧ v.rw = 0#1 then
    if v.rs = 0#1 then { c with ar := v.busByte.map fun b => b.setWidth 5 } else c.dataWrite v.busByte
  else c

/-- The controller after one event, the lines before it being `v`. -/
def Controller.observe (c : Controller) (v : LineView) (ev : LineEvent) : Controller :=
  if ev = .strobe 0#1 then c.latch v else c

/-- The controller after events, the lines before them being `v`. -/
def Controller.run (c : Controller) (v : LineView) : List LineEvent → Controller
  | [] => c
  | ev :: evs => (c.observe v ev).run (v.after ev) evs

/-! ### Reads (R133) -/

/-- The byte of register CTRL_AR, if it is readable and holds a value; `none` is an unspecified byte (R133). -/
def Controller.answer (c : Controller) (cfg : Config) : Option Byte :=
  match c.ar with
  | some i =>
    if h : i.toNat < 18 then
      if cfg.readable.contains i then c.regs[i.toNat] else none
    else none
  | none => none

/-- What the controller puts on the data lines: its answer in a read data phase while E is high (R133), and nothing
(the outer `none`) at any other time. -/
def Controller.drives (c : Controller) (cfg : Config) (v : LineView) : Option (Option Byte) :=
  if v.readPhase && v.e == 1#1 then some (c.answer cfg) else none

/-- How far a PULSE in a read data phase has come, with what the controller drove in it: RDREG's step 8. -/
inductive ReadWindow where
  /-- No such PULSE has just run. -/
  | closed
  /-- E is high and the controller drives `b`. -/
  | driven (b : Option Byte)
  /-- E has just fallen. -/
  | fallen (b : Option Byte)
  /-- The wait after the falling edge is over: a BUSRD now is RDREG's step 9. -/
  | held (b : Option Byte)
deriving DecidableEq, Repr

/-- The window after an event that leaves the controller driving `now`. -/
def ReadWindow.after (w : ReadWindow) (now : Option (Option Byte)) (ev : LineEvent) : ReadWindow :=
  match w, ev with
  | _, .strobe 1#1 =>
    match now with
    | some b => .driven b
    | none => .closed
  | .driven b, .delay _ => .driven b
  | .driven b, .strobe 0#1 => .fallen b
  | .fallen b, .delay _ => .held b
  | _, _ => .closed

/-- What A-READ asks of an event (R133): a byte the block samples from the lines at RDREG's step 9 is the byte the
controller drove in step 8, where the reference model fixes one. It asks nothing of any other BUSRD. -/
def ReadWindow.allows (w : ReadWindow) (v : LineView) (ev : LineEvent) : Bool :=
  match w, ev with
  | .held (some want), .busRead got => v.dir == .output || got == want
  | _, _ => true

/-- Assumption A-READ over events, from a window. -/
def Controller.answersFrom (c : Controller) (cfg : Config) (w : ReadWindow) (v : LineView) : List LineEvent → Bool
  | [] => true
  | ev :: evs =>
    let c' := c.observe v ev
    let v' := v.after ev
    w.allows v ev && c'.answersFrom cfg (w.after (c'.drives cfg v') ev) v' evs

/-- Assumption A-READ over the events of operations (R133), no read being under way before them. -/
def Controller.answersReads (c : Controller) (cfg : Config) (v : LineView) (evs : List LineEvent) : Bool :=
  c.answersFrom cfg .closed v evs

end Sys2Proof.Machine
end

