-- ==== Sys2Proof/Safety.lean ====
section
/-! DEFINITION. What a claim observes, what counts as a good run, and the invariants claims are stated over. -/

namespace Sys2Proof.Machine

/-- The observation: the line events with the fault bits (00_scope R24, 20_memory R72). -/
def State.observation (s : State) : List LineEvent × List Fault := (s.events, s.faults)

/-- No fault recorded: the premise of a claim about what a run serves (60_exceptions R195). -/
abbrev State.Clean (s : State) : Prop := s.faults = []

/-- Every cell of a plane lies inside it (10_state R34, R35). -/
abbrev Memory.Within (m : Memory) (size : Nat) : Prop := ∀ c ∈ m, c.1 < size

/-- The invariant of every boundary between two operations: the planes keep their canonical form and their size
(R152), no register access is in progress (R39), the response loop is idle (R38, R167), the enable line is low
(R116), FAULTS is a set (R42), and PREV is masked (R36). -/
abbrev State.Inv (s : State) : Prop :=
  s.cplane.wf ∧ s.pplane.wf ∧
  s.cplane.Within s.cfg.charPlaneSize ∧ s.pplane.Within s.cfg.pixelPlaneSize ∧
  s.txn = none ∧ s.lstate = .idle ∧ s.e = 0#1 ∧ s.faults.Nodup ∧
  (s.prevValid = true → s.prev &&& s.cfg.cmpMask = s.prev)

/-- The invariant of the sequencer's own runs, with no harness program queued: in the loop the block drives the bus
(R184) and the controller is deselected (R85, R134). -/
abbrev State.LoopInv (s : State) : Prop :=
  s.inputs.ops = [] ∧ (s.seq = .loop → s.dir = .output ∧ s.ncs = 1#1)

/-- The state after an outcome, if it is a next state. -/
def nextOf : Result → Option State
  | .next s => some s
  | .fault _ => none
  | .refused _ => none

/-! ### Infinite runs of the sequencer, and the fairness premise (70_reset R234) -/

/-- `r` is an infinite run of the sequencer: before its `n`-th step the environment sets what it will answer next to
`env n` (10_state R44), queues no harness word, and never takes a free value back. Every step answers a next state, so
every WAIT has ended: the first half of R234. -/
def SequencerRun (r : Nat → State) (env : Nat → Inputs) : Prop :=
  ∀ n, (env n).ops = [] ∧ (r n).inputs.draws ≤ (env n).draws ∧ step ((r n).setInputs (env n)) = .next (r (n + 1))

/-- The sequencer's next step from `s` is an ITER (44 R183), no harness word being queued. -/
def State.takesIter (s : State) : Prop := s.seq = .loop ∧ s.takePass.1 = .iter

/-- The fairness premise, the second half of R234: ITER is taken infinitely often. No step enforces it; a claim about
infinite runs names it as a premise (log entry 19). -/
def FairRun (r : Nat → State) (env : Nat → Inputs) : Prop :=
  ∀ n, ∃ m, n ≤ m ∧ ((r m).setInputs (env m)).takesIter

/-! ### Event sequences the spec writes out -/

/-- The fifteen events of one WRREG, RS standing at `rs0` at entry (R121). -/
def wrregEvents (c : Config) (rs0 : Bit) (idx : BitVec 5) (v : Byte) : List LineEvent :=
  [.dir .output, .ctl 0#1 rs0 0#1, .ctl 0#1 0#1 0#1, .data (idx.setWidth 8),
   .strobe 1#1, .delay c.tEH, .strobe 0#1, .delay c.tEL,
   .ctl 0#1 1#1 0#1, .data v, .strobe 1#1, .delay c.tEH, .strobe 0#1, .delay c.tEL, .ctl 1#1 1#1 0#1]

/-- The sixteen events of one RDREG that reads `v`, RS standing at `rs0` at entry (R126). -/
def rdregEvents (c : Config) (rs0 : Bit) (idx : BitVec 5) (v : Byte) : List LineEvent :=
  [.dir .output, .ctl 0#1 rs0 0#1, .ctl 0#1 0#1 0#1, .data (idx.setWidth 8),
   .strobe 1#1, .delay c.tEH, .strobe 0#1, .delay c.tEL,
   .dir .input, .ctl 0#1 1#1 1#1, .strobe 1#1, .delay c.tEH, .strobe 0#1, .delay c.tEL, .busRead v, .ctl 1#1 1#1 1#1]

/-- The events of one APPLYPROF (R176): the first access starts with RS at `rs0`, each later one with RS = 1. -/
def applyprofEvents (c : Config) (rs0 : Bit) (prof : Profile) : List LineEvent :=
  (List.finRange 16).flatMap fun (r : Fin 16) =>
    wrregEvents c (if r = 0 then rs0 else 1#1) (BitVec.ofNat 5 r.val) prof[r]

/-- The time-units some events take at least (R75, R117). -/
def delaySum : List LineEvent → Nat
  | [] => 0
  | .delay n :: evs => n + delaySum evs
  | .dir _ :: evs | .data _ :: evs | .ctl _ _ _ :: evs | .strobe _ :: evs | .busRead _ :: evs
  | .addrSample _ :: evs => delaySum evs

/-! ### Operations by what they write (R50) -/

/-- The operations that run a register access (R97). -/
def instrRunsAccess : Instr → Bool
  | .wrreg _ _ | .rdreg _ | .applyprof _ | .verifyprof _ => true
  | .setdir _ | .buswr _ | .busrd | .setctl _ _ _ | .pulse | .wait _ | .setmode _ | .resetpat | .fillplane _
  | .iter | .serve _ _ => false

/-- The operations that serve (R164, R160). -/
def instrServes : Instr → Bool
  | .iter | .serve _ _ => true
  | .setdir _ | .buswr _ | .busrd | .setctl _ _ _ | .pulse | .wait _ | .wrreg _ _ | .rdreg _ | .setmode _ | .resetpat
  | .fillplane _ | .applyprof _ | .verifyprof _ => false

/-- The operations that write a plane (R151). -/
def instrFillsPlane : Instr → Bool
  | .resetpat | .fillplane _ => true
  | .setdir _ | .buswr _ | .busrd | .setctl _ _ _ | .pulse | .wait _ | .wrreg _ _ | .rdreg _ | .setmode _ | .iter
  | .applyprof _ | .verifyprof _ | .serve _ _ => false

end Sys2Proof.Machine
end

