-- ==== Sys2Proof/Certificates/Slice0/Obligations.lean ====
section
/-! DEFINITION. The statements for the provers, from the spec's numbered rules. Each docstring says which rule a
statement formalises. A statement about one operation whose conclusion is `exec … = .next (a state with named fields
replaced)` says its result, its completion and its frame at once: every field not named is unchanged. -/

open Sys2Proof Sys2Proof.Machine

/-! ### Encoding -/

/-- R94's nine encoded examples, in both directions, and one word of each family R94 leaves out (V1). -/
def Obligations.SpecWordsDecodeAndEncode : Prop :=
  ∀ p ∈ [((.wrreg 1#5 0x50#8 : Instr), (0x70000150#32 : Word)), (.rdreg 14#5, 0x80000E00#32),
      (.setdir .output, 0x10000001#32), (.setmode .pixelMode, 0x90000001#32), (.serve 1#14 3#3, 0xF000C001#32),
      (.applyprof 2#8, 0xD0000002#32), (.wait 1#16, 0x60000001#32), (.setctl 0#1 0#1 0#1, 0x40000000#32),
      (.setctl 1#1 1#1 0#1, 0x40000006#32), (.buswr 0x41#8, 0x20000041#32), (.busrd, 0x30000000#32),
      (.pulse, 0x50000000#32), (.resetpat, 0xA0000000#32), (.fillplane .pix, 0xB0000001#32), (.iter, 0xC0000000#32),
      (.verifyprof 0#8, 0xE0000000#32)],
    encode p.1 = p.2 ∧ decodeWord p.2 = .ok p.1

/-- R90 to R93: no bit of an operand is dropped, for every operation and every operand; the block's decoder gives every
well-formed operation back from its word. -/
def Obligations.DecodeOfEncodeIsTheInstruction : Prop :=
  ∀ i : Instr, decodeWord (encode i) = .ok i ∧ ∀ c : Config, i.wellFormed c = true → decode c (encode i) = .ok i

/-- R90, R91: every word that decodes has one meaning, and that operation's word is the word. -/
def Obligations.EncodeOfDecodeIsTheWord : Prop :=
  ∀ (w : Word) (i : Instr), decodeWord w = .ok i → encode i = w

/-- R92: a word encodes an operation when `(w & mask) == match` for a row of the operation map, and then that row's. -/
def Obligations.DecoderAcceptsExactlyTheTableRows : Prop :=
  ∀ w : Word,
    ((∃ i, decodeWord w = .ok i) ↔ ∃ r ∈ opcodeRows, r.accepts w = true) ∧
    ∀ i, decodeWord w = .ok i → ∀ r ∈ opcodeRows, r.accepts w = true → r.mnemonic = mnemonicOf i

/-- R95: the reserved words are those with op 0, those with a bit set outside their format's fields, and the APPLYPROF
and VERIFYPROF words whose profile number is not below NPROF; for exactly these the decoder answers no operation, and a
step on one is a refusal. WAIT 0 is an ordinary WAIT. -/
def Obligations.ReservedWordsAreExactlyTheRefusedOnes : Prop :=
  let reserved := fun (c : Config) (w : Word) =>
    w.extractLsb' 28 4 = 0#4 ∨ (∀ r ∈ opcodeRows, w &&& r.mask ≠ r.value) ∨
    ((w.extractLsb' 28 4 = 0xD#4 ∨ w.extractLsb' 28 4 = 0xE#4) ∧ c.nprof ≤ (w.extractLsb' 0 8).toNat)
  (∀ (c : Config) (w : Word), (∃ why, decode c w = .error why) ↔ reserved c w) ∧
  (∀ (s : State) (w : Word) (rest : List Word), s.cfg.WellFormed → s.inputs.ops = w :: rest →
    ((∃ why, step s = .refused (.reservedWord why w)) ↔ reserved s.cfg w)) ∧
  ∀ c : Config, decode c 0x60000000#32 = .ok (.wait 0#16)

/-! ### Steps and configuration -/

/-- A step on a queued word runs the operation the word decodes to, from the state with the word taken off; nothing
else is added around `exec`. With `withFetchWord`, the next step runs exactly the operation encoded. -/
def Obligations.StepRunsTheDecodedInstruction : Prop :=
  (∀ (s : State) (w : Word) (rest : List Word) (i : Instr), s.cfg.WellFormed → s.inputs.ops = w :: rest →
    decode s.cfg w = .ok i → step s = exec i { s with inputs := { s.inputs with ops := rest } }) ∧
  (∀ (s : State) (i : Instr), s.cfg.WellFormed → i.wellFormed s.cfg = true →
    step (s.withFetchWord 32 (encode i).toNat) = exec i s)

/-- R199: a state with an ill-formed configuration is refused, whatever is queued. -/
def Obligations.IllFormedConfigurationIsRefused : Prop :=
  ∀ s : State, ¬ s.cfg.WellFormed → ∃ why, step s = .refused (.illFormedConfig why)

/-- R13 to R16: the configuration of `State.reset` has the spec's defaults and is well-formed. Its INITIAL_PROFILE is
the model's choice (log entry 3) and is not stated. -/
def Obligations.ResetConfigurationHasTheDefaults : Prop :=
  State.reset.cfg.WellFormed ∧ State.reset.cfg.charPlaneSize = 2000 ∧ State.reset.cfg.pixelPlaneSize = 8000 ∧
  State.reset.cfg.cmpMask = 0x0001FFFF#32 ∧ State.reset.cfg.oorPolicy = .fault ∧
  State.reset.cfg.readable = [14#5, 15#5, 16#5, 17#5] ∧ State.reset.cfg.tEH = 1 ∧ State.reset.cfg.tEL = 1 ∧
  1 ≤ State.reset.cfg.nprof

/-- R53: the reset table, under every configuration and whatever the environment goes on to give; a reset from any state
gives such a state, and `State.reset` is one. DOUT and PREV are unspecified there and here. -/
def Obligations.ResetTableValues : Prop :=
  (∀ (c : Config) (i : Inputs),
    let s := State.resetFrom c i
    s.cfg = c ∧ s.dir = .input ∧ s.ncs = 1#1 ∧ s.rs = 0#1 ∧ s.rw = 1#1 ∧ s.e = 0#1 ∧ s.mode = c.resetMode ∧
    (∀ a, s.cplane.read a = none) ∧ (∀ a, s.pplane.read a = none) ∧ s.prevValid = false ∧ s.lstate = .idle ∧
    s.txn = none ∧ s.seq = .startup ∧ s.verifyResult = none ∧ s.faults = [] ∧ s.events = []) ∧
  (∀ s : State, s.resetNow = State.resetFrom s.cfg s.inputs) ∧ ∃ c i, State.reset = State.resetFrom c i

/-- The invariants of Safety.lean hold at reset, under every configuration. -/
def Obligations.ResetMeetsTheInvariants : Prop :=
  (∀ (c : Config) (i : Inputs), (State.resetFrom c i).Inv) ∧ State.reset.Inv ∧ State.reset.LoopInv

/-! ### Invariants of every step -/

/-- R39, R42, R116, R152, R167: every step from every state that meets the invariant gives one that meets it. -/
def Obligations.EveryStepKeepsTheInvariant : Prop :=
  ∀ s t : State, s.Inv → step s = .next t → t.Inv

/-- R184: with no harness program, every step keeps the loop driving the bus with the controller deselected. -/
def Obligations.SequencerKeepsTheBusDriven : Prop :=
  ∀ s t : State, s.LoopInv → step s = .next t → t.LoopInv

/-- R42, R43, R45, R37: a step never changes the configuration, never drops an event or a fault, and never forgets that
a sample was captured. -/
def Obligations.HistoryAndFaultsOnlyGrow : Prop :=
  ∀ s t : State, step s = .next t →
    t.cfg = s.cfg ∧ (∃ evs, t.events = s.events ++ evs) ∧ (∀ f ∈ s.faults, f ∈ t.faults) ∧
    (s.prevValid = true → t.prevValid = true)

/-- R72: the events a step appends are exactly what happened to the lines: replaying them over the lines before gives
the lines after. -/
def Obligations.EventsTellEveryLineChange : Prop :=
  ∀ s t : State, step s = .next t → ∃ evs, t.events = s.events ++ evs ∧ s.lines.run evs = t.lines

/-- R182: the sequencer never returns to Startup; with no harness program one step leaves Startup. -/
def Obligations.SequencerNeverReturnsToStartup : Prop :=
  ∀ s t : State, step s = .next t →
    (s.seq = .loop → t.seq = .loop) ∧ (s.inputs.ops = [] → t.seq = .loop)

/-- R105, R112, R174, R211: every well-formed operation completes from every state; a step never ends in a fault, and never
in any refusal but those of R95 and R199. -/
def Obligations.EveryOperationCompletes : Prop :=
  (∀ (i : Instr) (s : State), i.wellFormed s.cfg = true → ∃ t, exec i s = .next t) ∧
  (∀ (s : State) (f : Fault), step s ≠ .fault f) ∧
  (∀ (s : State) (r : Refusal), step s = .refused r →
    (∃ why w, r = .reservedWord why w) ∨ (∃ p, r = .noSuchProfile p ∧ s.cfg.nprof ≤ p.toNat) ∨
    (∃ why, r = .illFormedConfig why ∧ ¬ s.cfg.WellFormed))

/-- R50: which operation writes which state element; no other operation writes it. The planes' rows are
`PlanesAreWrittenInBulkOnly`. -/
def Obligations.AccessMatrix : Prop :=
  ∀ (i : Instr) (s t : State), exec i s = .next t →
    t.cfg = s.cfg ∧ t.seq = s.seq ∧
    (t.dir ≠ s.dir → (∃ d, i = .setdir d) ∨ instrRunsAccess i = true) ∧
    (t.dout ≠ s.dout → (∃ v, i = .buswr v) ∨ instrRunsAccess i = true ∨ instrServes i = true) ∧
    ((t.ncs ≠ s.ncs ∨ t.rs ≠ s.rs ∨ t.rw ≠ s.rw) → (∃ a b c, i = .setctl a b c) ∨ instrRunsAccess i = true) ∧
    (t.e ≠ s.e → i = .pulse ∨ instrRunsAccess i = true) ∧
    (t.mode ≠ s.mode → ∃ m, i = .setmode m) ∧
    ((t.prev ≠ s.prev ∨ t.prevValid ≠ s.prevValid ∨ t.lstate ≠ s.lstate) → i = .iter) ∧
    (t.txn ≠ s.txn → instrRunsAccess i = true) ∧
    (t.verifyResult ≠ s.verifyResult → ∃ p, i = .verifyprof p) ∧
    (t.faults ≠ s.faults → instrServes i = true) ∧
    (t.events ≠ s.events → ¬ ((∃ m, i = .setmode m) ∨ instrFillsPlane i = true))

/-! ### Bus transceiver -/

/-- R106, R107: SETDIR sets DIR for all eight lines, appends one event and changes nothing else; the lines then carry the
byte DOUT already holds, or what the environment drives. -/
def Obligations.SetdirResult : Prop :=
  (∀ (d : Direction) (s : State),
    exec (.setdir d) s = .next { s with dir := d, events := s.events ++ [.dir d] }) ∧
  (∀ s t : State, exec (.setdir .output) s = .next t → t.drivenByte = some s.dout) ∧
  (∀ s t : State, exec (.setdir .input) s = .next t → t.drivenByte = none) ∧
  encode (.setdir .input) = 0x10000000#32 ∧ encode (.setdir .output) = 0x10000001#32

/-- R108: BUSWR sets all eight bits of DOUT, appends one event, changes nothing else; the lines show the byte while DIR
is output and stay undriven while it is input. -/
def Obligations.BuswrResult : Prop :=
  (∀ (v : Byte) (s : State),
    exec (.buswr v) s = .next { s with dout := v, events := s.events ++ [.data v] }) ∧
  (∀ (v : Byte) (s t : State), exec (.buswr v) s = .next t →
    t.drivenByte = match s.dir with | .output => some v | .input => none) ∧
  (∀ v : Byte, encode (.buswr v) = 0x20000000#32 ||| v.setWidth 32)

/-- R110, R111: BUSRD appends the byte the environment has on the lines while DIR is input (a fresh unconstrained byte
where nothing gives one), and an unconstrained byte while the block drives; it changes nothing else but which inputs
have been taken. What the free byte is, nothing says. -/
def Obligations.BusrdResult : Prop :=
  (∀ (s : State) (v : Byte) (rest : List Byte), s.dir = .input → s.inputs.busIns = v :: rest →
    exec .busrd s = .next { s with
      inputs := { s.inputs with busIns := rest }, events := s.events ++ [.busRead v] }) ∧
  (∀ s : State, (s.dir = .output ∨ s.inputs.busIns = []) →
    exec .busrd s = .next { s with
      inputs := { s.inputs with draws := s.inputs.draws + 1 },
      events := s.events ++ [.busRead (Config.freeByte s.inputs.draws)] }) ∧
  encode .busrd = 0x30000000#32

/-! ### Register protocol -/

/-- R115: SETCTL sets the three control lines in one update and appends one event, and never touches E, DIR or DOUT. -/
def Obligations.SetctlResult : Prop :=
  (∀ (ncs rs rw : Bit) (s : State),
    exec (.setctl ncs rs rw) s =
      .next { s with ncs := ncs, rs := rs, rw := rw, events := s.events ++ [.ctl ncs rs rw] }) ∧
  (∀ ncs rs rw : Bit, encode (.setctl ncs rs rw) =
    0x40000000#32 ||| (ncs.setWidth 32 <<< 2) ||| (rs.setWidth 32 <<< 1) ||| rw.setWidth 32)

/-- R116, R117: PULSE makes one rising and one falling edge with the two waits between and after, and leaves E low; WAIT
appends its bound and does nothing else. -/
def Obligations.PulseAndWaitResults : Prop :=
  (∀ s : State, exec .pulse s = .next { s with
    e := 0#1, events := s.events ++ [.strobe 1#1, .delay s.cfg.tEH, .strobe 0#1, .delay s.cfg.tEL] }) ∧
  (∀ (n : BitVec 16) (s : State), exec (.wait n) s = .next { s with events := s.events ++ [.delay n.toNat] })

/-- R121: the fifteen events of one WRREG, its end state, and that nothing else changes. -/
def Obligations.WrregResult : Prop :=
  ∀ (idx : BitVec 5) (v : Byte) (s : State),
    exec (.wrreg idx v) s = .next { s with
      dir := .output, dout := v, ncs := 1#1, rs := 1#1, rw := 0#1, e := 0#1, txn := none,
      events := s.events ++ wrregEvents s.cfg s.rs idx v } ∧
    (wrregEvents s.cfg s.rs idx v).length = 15

/-- R126, R127: the sixteen events of one RDREG and its end state; the byte read is whatever the environment has on the
lines, and no fault is recorded whatever the index. -/
def Obligations.RdregResult : Prop :=
  (∀ (idx : BitVec 5) (s : State) (v : Byte) (rest : List Byte), s.inputs.busIns = v :: rest →
    exec (.rdreg idx) s = .next { s with
      dir := .input, dout := idx.setWidth 8, ncs := 1#1, rs := 1#1, rw := 1#1, e := 0#1, txn := none,
      events := s.events ++ rdregEvents s.cfg s.rs idx v,
      inputs := { s.inputs with busIns := rest } }) ∧
  (∀ (idx : BitVec 5) (s : State), s.inputs.busIns = [] →
    ∃ v, exec (.rdreg idx) s = .next { s with
      dir := .input, dout := idx.setWidth 8, ncs := 1#1, rs := 1#1, rw := 1#1, e := 0#1, txn := none,
      events := s.events ++ rdregEvents s.cfg s.rs idx v,
      inputs := { s.inputs with draws := s.inputs.draws + 1 } }) ∧
  (∀ (c : Config) (rs0 : Bit) (idx : BitVec 5) (v : Byte), (rdregEvents c rs0 idx v).length = 16)

/-- R118, R129: a register access takes at least 2 * (T_EH + T_EL) time-units, and so at least 4. -/
def Obligations.RegisterAccessTakesItsTime : Prop :=
  ∀ (i : Instr) (s t : State) (evs : List LineEvent), s.cfg.WellFormed →
    ((∃ idx v, i = .wrreg idx v) ∨ (∃ idx, i = .rdreg idx)) → exec i s = .next t → t.events = s.events ++ evs →
    delaySum evs = 2 * (s.cfg.tEH + s.cfg.tEL) ∧ 4 ≤ delaySum evs

/-- R128: in RDREG the block stops driving before the controller is asked to drive: at no event do both drive the data
lines. -/
def Obligations.RdregNeverDrivesAgainstTheController : Prop :=
  ∀ (idx : BitVec 5) (s t : State) (evs done rest : List LineEvent), s.ncs = 1#1 →
    exec (.rdreg idx) s = .next t → t.events = s.events ++ evs → evs = done ++ rest →
    ¬ ((s.lines.run done).dir = .output ∧ (s.lines.run done).readPhase = true)

/-- R86: no operation but a bare PULSE can have E high with the lines in an address read, since E is low between
operations. -/
def Obligations.AddressReadIsNeverStrobed : Prop :=
  ∀ (i : Instr) (s t : State) (evs done rest : List LineEvent), s.e = 0#1 → i ≠ .pulse →
    exec i s = .next t → t.events = s.events ++ evs → evs = done ++ rest →
    ¬ ((s.lines.run done).e = 1#1 ∧ (s.lines.run done).addressRead = true)

/-! ### Mode and buffers -/

/-- R141: SETMODE writes MODE and nothing else, and setting the mode already set changes nothing. -/
def Obligations.SetmodeResult : Prop :=
  (∀ (m : VideoMode) (s : State), exec (.setmode m) s = .next { s with mode := m }) ∧
  (∀ s : State, exec (.setmode s.mode) s = .next s) ∧
  encode (.setmode .characterMode) = 0x90000000#32 ∧ encode (.setmode .pixelMode) = 0x90000001#32

/-- R142, R143: a serve right after a SETMODE is the serve of the new mode, and an ITER that finds no change after it
leaves the byte of the old mode in DOUT. -/
def Obligations.ModeSwitchIsImmediateAndDoesNotReserve : Prop :=
  (∀ (m : VideoMode) (a : BitVec 14) (row : BitVec 3) (s t : State), exec (.setmode m) s = .next t →
    exec (.serve a row) t = exec (.serve a row) { s with mode := m }) ∧
  (∀ (m : VideoMode) (s t : State) (raw : Word) (rest : List Word), s.inputs.samples = raw :: rest →
    s.prevValid = true → raw &&& s.cfg.cmpMask = s.prev → exec (.setmode m) s = .next t →
    ∃ u, exec .iter t = .next u ∧ u.dout = s.dout ∧ u.mode = m)

/-- R144, R148: RESETPAT gives every cell of both planes its pattern byte, keeps every address outside them, and changes
nothing else. -/
def Obligations.ResetpatResult : Prop :=
  (∀ s : State, ∃ t, exec .resetpat s = .next t ∧
    (∀ i, t.cplane.read i = if i < s.cfg.charPlaneSize then some (BitVec.ofNat 8 (0x20 + i % 96)) else s.cplane.read i) ∧
    (∀ i, t.pplane.read i = if i < s.cfg.pixelPlaneSize then some (BitVec.ofNat 8 (i % 256)) else s.pplane.read i) ∧
    t = { s with cplane := t.cplane, pplane := t.pplane }) ∧
  encode .resetpat = 0xA0000000#32

/-- R145, R146: the corner cells of the pattern, and the range of the character pattern. -/
def Obligations.ResetpatCornerCells : Prop :=
  ∀ s t : State, s.cfg.charPlaneSize = 2000 → s.cfg.pixelPlaneSize = 8000 → exec .resetpat s = .next t →
    t.cplane.read 0 = some 0x20#8 ∧ t.cplane.read 1 = some 0x21#8 ∧ t.cplane.read 95 = some 0x7F#8 ∧
    t.cplane.read 96 = some 0x20#8 ∧ t.cplane.read 191 = some 0x7F#8 ∧ t.cplane.read 1999 = some 0x6F#8 ∧
    t.pplane.read 255 = some 0xFF#8 ∧ t.pplane.read 256 = some 0x00#8 ∧ t.pplane.read 257 = some 0x01#8 ∧
    t.pplane.read 7999 = some 0x3F#8 ∧
    ∀ i, i < 2000 → ∃ v, t.cplane.read i = some v ∧ 0x20#8 ≤ v ∧ v ≤ 0x7F#8

/-- R147: after RESETPAT no cell is unwritten, a second RESETPAT changes nothing, and the planes depend on nothing that
was in them before. -/
def Obligations.ResetpatIsIdempotentAndForgetful : Prop :=
  (∀ s t : State, exec .resetpat s = .next t → exec .resetpat t = .next t) ∧
  (∀ s t : State, exec .resetpat s = .next t →
    (∀ i, i < s.cfg.charPlaneSize → t.cplane.read i ≠ none) ∧ (∀ i, i < s.cfg.pixelPlaneSize → t.pplane.read i ≠ none)) ∧
  (∀ s s' t t' : State, s.Inv → s'.Inv → s.cfg = s'.cfg → exec .resetpat s = .next t → exec .resetpat s' = .next t' →
    t.cplane = t'.cplane ∧ t.pplane = t'.pplane)

/-- R150: FILLPLANE replaces every cell of its plane by the host's contents, keeps every address outside it and the whole
other plane, and takes nothing but the contents from the inputs. A cell the given contents do not reach (all of them
where nothing is given) holds a byte the host leaves free (log entry 10). -/
def Obligations.FillplaneResult : Prop :=
  ∀ (pl : Plane) (s : State) (contents : List Byte) (rest : List (List Byte)),
    (s.inputs.fills = contents :: rest ∨ (s.inputs.fills = [] ∧ contents = [] ∧ rest = [])) →
    ∃ t, exec (.fillplane pl) s = .next t ∧
      (∀ i, i < s.cfg.planeSize pl → i < contents.length → (t.plane pl).read i = contents[i]?) ∧
      (∀ i, i < s.cfg.planeSize pl → (t.plane pl).read i ≠ none) ∧
      (∀ i, s.cfg.planeSize pl ≤ i → (t.plane pl).read i = (s.plane pl).read i) ∧
      (∀ other, other ≠ pl → t.plane other = s.plane other) ∧
      t = { s with
        cplane := t.cplane, pplane := t.pplane,
        inputs := { s.inputs with fills := rest, draws := t.inputs.draws } }

/-- R151, R50: RESETPAT and FILLPLANE are the only writers of the planes; every other operation leaves every byte of both
planes as it was. -/
def Obligations.PlanesAreWrittenInBulkOnly : Prop :=
  ∀ (i : Instr) (s t : State), instrFillsPlane i = false → exec i s = .next t →
    t.cplane = s.cplane ∧ t.pplane = s.pplane

/-! ### Multiplexer, SERVE and ITER -/

/-- R154: the glyph index is c * 8 + row, below 2048, and equals the concatenation of c and row. -/
def Obligations.GlyphIndexIsTheConcatenation : Prop :=
  ∀ (c : Byte) (row : BitVec 3),
    (glyphIndex c row).val = c.toNat * 8 + row.toNat ∧ (glyphIndex c row).val = (c ++ row).toNat ∧
    c.toNat * 8 + row.toNat < 2048

/-- R155, R164: a serve of a written cell inside the plane drives GLYPH_ROM[c * 8 + row] in CharacterMode and the cell
itself in PixelMode whatever the row, appends one event, and changes nothing else. -/
def Obligations.ServeInRangeResult : Prop :=
  (∀ (a : BitVec 14) (row : BitVec 3) (s : State) (c : Byte) (h : c.toNat * 8 + row.toNat < 2048),
    s.mode = .characterMode → a.toNat < s.cfg.charPlaneSize → s.cplane.read a.toNat = some c →
    exec (.serve a row) s = .next { s with
      dout := s.cfg.glyphRom[c.toNat * 8 + row.toNat],
      events := s.events ++ [.data s.cfg.glyphRom[c.toNat * 8 + row.toNat]] }) ∧
  (∀ (a : BitVec 14) (row : BitVec 3) (s : State) (v : Byte),
    s.mode = .pixelMode → a.toNat < s.cfg.pixelPlaneSize → s.pplane.read a.toNat = some v →
    exec (.serve a row) s = .next { s with dout := v, events := s.events ++ [.data v] })

/-- R156: in PixelMode the result does not depend on the row, in range or not. -/
def Obligations.PixelServeIgnoresTheRow : Prop :=
  ∀ (a : BitVec 14) (r1 r2 : BitVec 3) (s : State), s.mode = .pixelMode →
    exec (.serve a r1) s = exec (.serve a r2) s

/-- R61, R62, R195, R197, R157: a serve beyond the plane under OOR_POLICY = Fault, and a serve of an unwritten cell,
record their fault once with {space, a} and still drive a byte: in PixelMode an unconstrained byte `d`, in CharacterMode
the glyph byte of an unconstrained `d`. What `d` is, nothing says. -/
def Obligations.FaultingServeRecordsAndDrives : Prop :=
  ∀ (a : BitVec 14) (row : BitVec 3) (s : State) (pl : Plane) (f : Fault),
    (pl = match s.mode with | .characterMode => .char | .pixelMode => .pix) →
    ((s.cfg.planeSize pl ≤ a.toNat ∧ s.cfg.oorPolicy = .fault ∧ f = .outOfRangeAddress pl a.toNat) ∨
     (a.toNat < s.cfg.planeSize pl ∧ (s.plane pl).read a.toNat = none ∧ f = .uninitRead pl a.toNat)) →
    ∃ d b : Byte,
      (b = match s.mode with | .characterMode => s.cfg.glyphRom[glyphIndex d row] | .pixelMode => d) ∧
      exec (.serve a row) s = .next { s with
        dout := b, events := s.events ++ [.data b],
        faults := if f ∈ s.faults then s.faults else s.faults ++ [f],
        inputs := { s.inputs with draws := s.inputs.draws + 1 } }

/-- R63: under Wrap a serve beyond the plane is the serve of cell a mod size, under Clamp of cell size - 1, and neither
records OutOfRangeAddress. -/
def Obligations.WrapAndClampServeAnotherCell : Prop :=
  ∀ (a : BitVec 14) (row : BitVec 3) (s : State) (pl : Plane), s.cfg.WellFormed →
    (pl = match s.mode with | .characterMode => .char | .pixelMode => .pix) → s.cfg.planeSize pl ≤ a.toNat →
    (s.cfg.oorPolicy = .wrap →
      exec (.serve a row) s = exec (.serve (BitVec.ofNat 14 (a.toNat % s.cfg.planeSize pl)) row) s) ∧
    (s.cfg.oorPolicy = .clamp →
      exec (.serve a row) s = exec (.serve (BitVec.ofNat 14 (s.cfg.planeSize pl - 1)) row) s) ∧
    (s.cfg.oorPolicy ≠ .fault → ∀ t, exec (.serve a row) s = .next t →
      ∀ sp n, Fault.outOfRangeAddress sp n ∈ t.faults → Fault.outOfRangeAddress sp n ∈ s.faults)

/-- R200: one serve records at most one fault. -/
def Obligations.ServeRecordsAtMostOneFault : Prop :=
  ∀ (a : BitVec 14) (row : BitVec 3) (s t : State), exec (.serve a row) s = .next t →
    t.faults = s.faults ∨ ∃ f, f ∉ s.faults ∧ t.faults = s.faults ++ [f]

/-- R198: only SERVE can raise a fault, directly or through ITER. -/
def Obligations.OnlyServesRecordFaults : Prop :=
  ∀ (i : Instr) (s t : State), instrServes i = false → exec i s = .next t → t.faults = s.faults

/-- R160, R161: an ITER that finds no change appends its sample and writes nothing else; one that finds a change is the
SERVE of the decoded pair with the key recorded after it and the loop idle again. -/
def Obligations.IterResult : Prop :=
  ∀ (s : State) (raw : Word) (rest : List Word), s.inputs.samples = raw :: rest →
    let s' := { s with inputs := { s.inputs with samples := rest }, events := s.events ++ [.addrSample raw] }
    (s.prevValid = true → raw &&& s.cfg.cmpMask = s.prev → exec .iter s = .next s') ∧
    ((s.prevValid = false ∨ raw &&& s.cfg.cmpMask ≠ s.prev) →
      ∃ u, exec (.serve (raw.extractLsb' 0 14) (raw.extractLsb' 14 3)) s' = .next u ∧
        exec .iter s = .next { u with prev := raw &&& s.cfg.cmpMask, prevValid := true, lstate := .idle })

/-- R162: an ITER serves exactly once on a changed snapshot and not at all on an unchanged one: its events are its sample
and at most the one byte served. -/
def Obligations.IterServesExactlyOncePerChange : Prop :=
  ∀ s t : State, exec .iter s = .next t →
    ∃ raw, ((s.prevValid = false ∨ raw &&& s.cfg.cmpMask ≠ s.prev) ∧
        ∃ b, t.events = s.events ++ [.addrSample raw, .data b] ∧ t.dout = b) ∨
      (s.prevValid = true ∧ raw &&& s.cfg.cmpMask = s.prev ∧ t.events = s.events ++ [.addrSample raw] ∧ t.dout = s.dout)

/-- R162: two consecutive snapshots with the same masked key never trigger a second serve. -/
def Obligations.RepeatedSnapshotIsNotServedAgain : Prop :=
  ∀ (s t : State) (r1 r2 : Word) (rest : List Word), s.inputs.samples = r1 :: r2 :: rest →
    r1 &&& s.cfg.cmpMask = r2 &&& s.cfg.cmpMask → exec .iter s = .next t →
    exec .iter t = .next { t with
      inputs := { t.inputs with samples := rest }, events := t.events ++ [.addrSample r2] }

/-- R159: under a well-formed mask no change of address or row goes unserved. -/
def Obligations.NoAddressChangeEscapesTheMask : Prop :=
  ∀ (c : Config) (r1 r2 : Word), c.WellFormed →
    (r1.extractLsb' 0 14 ≠ r2.extractLsb' 0 14 ∨ r1.extractLsb' 14 3 ≠ r2.extractLsb' 14 3) →
    changeKey c r1 ≠ changeKey c r2

/-- R83, R81: the snapshot of a pair is (row << 14) | a, its upper bits are zero, it decodes to the pair, and the
examples. -/
def Obligations.SnapshotOfAPairDecodesToIt : Prop :=
  (∀ (a : BitVec 14) (row : BitVec 3), snapshotOf a row = row.setWidth 32 <<< 14 ||| a.setWidth 32 ∧
    snapshotAddr (snapshotOf a row) = a ∧ snapshotRow (snapshotOf a row) = row ∧
    (snapshotOf a row).extractLsb' 17 15 = 0#15) ∧
  snapshotOf 0#14 0#3 = 0x00000000#32 ∧ snapshotOf 1#14 0#3 = 0x00000001#32 ∧ snapshotOf 1#14 3#3 = 0x0000C001#32 ∧
  snapshotOf 0x3FFF#14 7#3 = 0x0001FFFF#32

/-! ### Profiles -/

/-- R175, R176: APPLYPROF makes the sixteen writes of its profile in ascending order, 240 events, ends as the last write
does, and changes nothing else. -/
def Obligations.ApplyprofResult : Prop :=
  ∀ (p : BitVec 8) (s : State) (prof : Profile), s.cfg.profiles[p.toNat]? = some prof →
    exec (.applyprof p) s = .next { s with
      dir := .output, dout := prof[15], ncs := 1#1, rs := 1#1, rw := 0#1, e := 0#1, txn := none,
      events := s.events ++ applyprofEvents s.cfg s.rs prof } ∧
    (applyprofEvents s.cfg s.rs prof).length = 240

/-- R95: a profile number at or above NPROF names no operation, so both profile operations refuse it. -/
def Obligations.UnknownProfileIsRefused : Prop :=
  ∀ (p : BitVec 8) (s : State), s.cfg.nprof ≤ p.toNat →
    exec (.applyprof p) s = .refused (.noSuchProfile p) ∧ exec (.verifyprof p) s = .refused (.noSuchProfile p)

/-- R180: VERIFYPROF applies the profile, reads each readable profile register back in ascending order, and leaves in
VERIFY_RESULT exactly the registers whose answer differs from the byte written; nothing else changes. The answers are
the environment's next bytes, and where it gives too few, bytes nothing is said of. -/
def Obligations.VerifyprofResult : Prop :=
  ∀ (p : BitVec 8) (s : State) (prof : Profile) (regs : List (Fin 16)),
    s.cfg.profiles[p.toNat]? = some prof →
    regs = (List.finRange 16).filter (fun r => s.cfg.readable.contains (BitVec.ofNat 5 r.val)) → regs ≠ [] →
    ∃ (answers busIns : List Byte) (draws : Nat) (mask : BitVec 16) (last : Fin 16),
      answers.length = regs.length ∧ regs.getLast? = some last ∧
      (∀ given rest, s.inputs.busIns = given ++ rest → given.length = regs.length →
        answers = given ∧ busIns = rest ∧ draws = s.inputs.draws) ∧
      (∀ r : Fin 16, mask.getLsbD r.val = true ↔ ∃ v, (r, v) ∈ regs.zip answers ∧ v ≠ prof[r]) ∧
      exec (.verifyprof p) s = .next { s with
        dir := .input, dout := BitVec.ofNat 8 last.val, ncs := 1#1, rs := 1#1, rw := 1#1, e := 0#1, txn := none,
        verifyResult := some mask,
        events := s.events ++ applyprofEvents s.cfg s.rs prof ++
          (regs.zip answers).flatMap (fun x => rdregEvents s.cfg 1#1 (BitVec.ofNat 5 x.1.val) x.2),
        inputs := { s.inputs with busIns := busIns, draws := draws } }

/-- R181 (a): with no readable profile register, VERIFYPROF is APPLYPROF followed by an all-zero result. -/
def Obligations.VerifyprofWithNothingReadable : Prop :=
  ∀ (p : BitVec 8) (s t : State),
    (∀ r : Fin 16, BitVec.ofNat 5 r.val ∉ s.cfg.readable) → exec (.applyprof p) s = .next t →
    exec (.verifyprof p) s = .next { t with verifyResult := some 0#16 }

/-! ### Sequencer -/

/-- R183, R216: from Startup with no harness program, one step programs the initial profile, drives the bus and enters
Loop: 241 events. -/
def Obligations.StartupProgramsTheInitialProfile : Prop :=
  ∀ (s : State) (prof : Profile), s.cfg.WellFormed → s.inputs.ops = [] → s.seq = .startup →
    s.cfg.profiles[s.cfg.initialProfile]? = some prof →
    step s = .next { s with
      dir := .output, dout := prof[15], ncs := 1#1, rs := 1#1, rw := 0#1, e := 0#1, txn := none, seq := .loop,
      events := s.events ++ applyprofEvents s.cfg s.rs prof ++ [.dir .output] } ∧
    (applyprofEvents s.cfg s.rs prof ++ [LineEvent.dir .output]).length = 241

/-- R218: in the reset sequence the reset value of DOUT stands on the driven lines after the first three events, E low
and the controller left as it was; before the first event the block drives nothing, from the fourth on the lines carry
a byte the sequence itself has written, first 0x00. -/
def Obligations.ResetByteShowsForTwoEvents : Prop :=
  ∀ (c : Config) (i : Inputs) (t : State), i.ops = [] → step (State.resetFrom c i) = .next t →
    let s := State.resetFrom c i
    let view := fun n => s.lines.run (t.events.take n)
    (view 0).busByte = none ∧
    (∀ n, 1 ≤ n → n ≤ 3 → (view n).busByte = some s.dout ∧ (view n).e = 0#1 ∧
      ∀ k : Controller, k.run s.lines (t.events.take n) = k) ∧
    (view 4).busByte = some 0x00#8 ∧ ∀ n, 4 ≤ n → ∃ v, LineEvent.data v ∈ t.events.take n ∧ (view n).busByte = some v

/-- R183, R185: in the loop with no harness program, a step is the ITER or the poll the host's schedule has; a poll with no
token does nothing, and a character goes through CMD_DECODE. -/
def Obligations.LoopPassFollowsTheSchedule : Prop :=
  ∀ (s : State) (p : Pass) (rest : List Pass), s.cfg.WellFormed → s.inputs.ops = [] → s.seq = .loop →
    s.inputs.passes = p :: rest →
    let s' := { s with inputs := { s.inputs with passes := rest } }
    (p = .iter → step s = exec .iter s') ∧
    (p = .poll none → step s = .next s') ∧
    (∀ b, p = .character b → (∀ e ∈ s.cfg.cmdTable, e.1 ≠ b) → step s = .next s') ∧
    (∀ b cmd before after, p = .character b → s.cfg.cmdTable = before ++ (b, cmd) :: after →
      (∀ e ∈ before, e.1 ≠ b) →
      step s = step { s with inputs := { s.inputs with passes := .poll (some cmd) :: rest } })

/-- R186, R184: what each command runs; a command that ran a register access is followed by SETDIR output. -/
def Obligations.CommandDispatch : Prop :=
  ∀ (s : State) (cmd : Command) (rest : List Pass), s.cfg.WellFormed → s.inputs.ops = [] → s.seq = .loop →
    s.inputs.passes = .poll (some cmd) :: rest →
    let s' := { s with inputs := { s.inputs with passes := rest } }
    (∀ m, cmd = .setMode m → step s = exec (.setmode m) s') ∧
    (cmd = .resetPattern → step s = exec .resetpat s') ∧
    (∀ pl contents, cmd = .fill pl contents →
      step s = exec (.fillplane pl) { s' with inputs := { s'.inputs with fills := contents :: s'.inputs.fills } }) ∧
    (∀ p t, cmd = .applyProfile p → exec (.applyprof p) s' = .next t → step s = exec (.setdir .output) t) ∧
    (∀ p t, cmd = .verifyProfile p → exec (.verifyprof p) s' = .next t → step s = exec (.setdir .output) t)

/-! ### The controller's reference model (premises about the environment, R130 to R137) -/

/-- R131, R132, R136: under the reference model one WRREG leaves the controller's address register at the index, and
exactly the register it names changed: 0 to 15 take the value, 16 to 31 change nothing. -/
def Obligations.WrregReachesTheController : Prop :=
  ∀ (idx : BitVec 5) (v : Byte) (s t : State) (evs : List LineEvent) (c : Controller),
    exec (.wrreg idx v) s = .next t → t.events = s.events ++ evs →
    (c.run s.lines evs).ar = some idx ∧
    ∀ r : Fin 18, (c.run s.lines evs).regs[r] = if r.val = idx.toNat ∧ idx.toNat < 16 then some v else c.regs[r]

/-- R136: under the reference model APPLYPROF leaves controller registers 0 to 15 holding the profile, whatever they held. -/
def Obligations.ApplyprofProgramsTheController : Prop :=
  ∀ (p : BitVec 8) (s t : State) (prof : Profile) (evs : List LineEvent) (c : Controller),
    s.cfg.profiles[p.toNat]? = some prof → exec (.applyprof p) s = .next t → t.events = s.events ++ evs →
    (c.run s.lines evs).ar = some 15#5 ∧
    (∀ r : Fin 16, (c.run s.lines evs).regs[r.val] = some prof[r]) ∧
    ∀ r : Fin 18, 16 ≤ r.val → (c.run s.lines evs).regs[r] = c.regs[r]

/-- R181 (c), R136: under the reference model and A-READ, VERIFYPROF finds no mismatch. -/
def Obligations.VerifyprofFindsNoMismatchUnderARead : Prop :=
  ∀ (p : BitVec 8) (s t : State) (evs : List LineEvent) (c : Controller),
    exec (.verifyprof p) s = .next t → t.events = s.events ++ evs → c.answersReads s.cfg s.lines evs = true →
    t.verifyResult = some 0#16

/-- R136, R133: under the reference model and A-READ, RDREG of a readable register whose value is known reads that
value, leaves the registers alone and the address register at the index. With `WrregReachesTheController` this is R136. -/
def Obligations.RdregReturnsTheRegisterUnderARead : Prop :=
  ∀ (idx : BitVec 5) (h : idx.toNat < 18) (v : Byte) (s t : State) (evs : List LineEvent) (c : Controller),
    idx ∈ s.cfg.readable → c.regs[idx.toNat] = some v → exec (.rdreg idx) s = .next t → t.events = s.events ++ evs →
    c.answersReads s.cfg s.lines evs = true →
    evs = rdregEvents s.cfg s.rs idx v ∧ (c.run s.lines evs).ar = some idx ∧ (c.run s.lines evs).regs = c.regs

/-- R134: while the controller is deselected no operation but a register access changes it: not a serve, not an iteration
of the loop, not a bare PULSE or BUSWR. -/
def Obligations.DeselectedControllerIsNeverWritten : Prop :=
  ∀ (i : Instr) (s t : State) (evs : List LineEvent) (c : Controller), s.ncs = 1#1 → instrRunsAccess i = false →
    exec i s = .next t → t.events = s.events ++ evs → c.run s.lines evs = c

/-! ### Fair runs (R234) -/

/-- R234: in every fair run of the sequencer the address input is sampled again and again, and a snapshot the
environment holds from some step on is, from some later step on, the one last recorded as served. -/
def Obligations.FairRunsServeAHeldAddress : Prop :=
  ∀ (r : Nat → State) (env : Nat → Inputs), SequencerRun r env → FairRun r env →
    (∀ n, ∃ m raw evs, n ≤ m ∧ (r (m + 1)).events = (r m).events ++ .addrSample raw :: evs) ∧
    (∀ n raw, (∀ m, n ≤ m → ∃ rest, (env m).samples = raw :: rest) →
      ∃ m, n ≤ m ∧ ∀ k, m ≤ k → (r k).prevValid = true ∧ (r k).prev = changeKey (r k).cfg raw)
end

