-- ==== Sys2Proof/Laws/Controller.lean ====
section
/-! SUPPORT. What the controller's reference model makes of events, and of one register access. -/

namespace Sys2Proof.Machine

variable (c : Controller) (cfg : Config) (w : ReadWindow) (v : LineView)

theorem LineView.run_append (evs more : List LineEvent) : v.run (evs ++ more) = (v.run evs).run more := by
  simp [LineView.run]

theorem Controller.run_append (evs more : List LineEvent) :
    c.run v (evs ++ more) = (c.run v evs).run (v.run evs) more := by
  induction evs generalizing c v with
  | nil => rfl
  | cons ev evs ih => exact ih _ _

/-- The registers after one WRREG of `b` to `idx` (R132). -/
def Controller.written (c : Controller) (idx : BitVec 5) (b : Byte) : Vector (Option Byte) 18 :=
  if h : idx.toNat < 16 then c.regs.set idx.toNat (some b) (by omega) else c.regs

theorem Controller.written_get (idx : BitVec 5) (b : Byte) (r : Fin 18) :
    (c.written idx b)[r] = if r.val = idx.toNat ∧ idx.toNat < 16 then some b else c.regs[r] := by
  unfold Controller.written
  split
  · next h => simp [Vector.getElem_set, h, eq_comm]
  · next h => simp [h]

/-- The lines after the events of one WRREG (R121). -/
theorem lines_wrregEvents (rs0 : Bit) (idx : BitVec 5) (b : Byte) :
    v.run (wrregEvents cfg rs0 idx b) = ⟨.output, b, 1#1, 1#1, 0#1, 0#1⟩ := rfl

/-- The controller after the events of one WRREG (R131, R132). -/
theorem run_wrregEvents (rs0 : Bit) (idx : BitVec 5) (b : Byte) :
    c.run v (wrregEvents cfg rs0 idx b) = ⟨some idx, c.written idx b⟩ := by
  simp [wrregEvents, Controller.run, Controller.observe, LineView.after, Controller.latch, LineView.busByte,
    Controller.dataWrite, Controller.written]
  split <;> rfl

/-- A WRREG makes no read: A-READ asks nothing of its events. -/
theorem answersFrom_wrregEvents (rs0 : Bit) (idx : BitVec 5) (b : Byte) (more : List LineEvent) :
    c.answersFrom cfg w v (wrregEvents cfg rs0 idx b ++ more) =
      (c.run v (wrregEvents cfg rs0 idx b)).answersFrom cfg .closed (v.run (wrregEvents cfg rs0 idx b)) more := by
  simp [wrregEvents, Controller.answersFrom, Controller.run, LineView.run, ReadWindow.allows, ReadWindow.after]

/-- The lines after the events of one RDREG (R126). -/
theorem lines_rdregEvents (rs0 : Bit) (idx : BitVec 5) (b : Byte) :
    v.run (rdregEvents cfg rs0 idx b) = ⟨.input, idx.setWidth 8, 1#1, 1#1, 1#1, 0#1⟩ := rfl

/-- The controller after the events of one RDREG: the address register alone has changed. -/
theorem run_rdregEvents (rs0 : Bit) (idx : BitVec 5) (b : Byte) :
    c.run v (rdregEvents cfg rs0 idx b) = ⟨some idx, c.regs⟩ := by
  simp [rdregEvents, Controller.run, Controller.observe, LineView.after, Controller.latch, LineView.busByte]

/-- A-READ over one RDREG (R133): the byte read is the register's, if it is readable and its value known. -/
theorem answersFrom_rdregEvents (rs0 : Bit) (idx : BitVec 5) (b : Byte) (more : List LineEvent) :
    c.answersFrom cfg w v (rdregEvents cfg rs0 idx b ++ more) =
      ((Controller.answer ⟨some idx, c.regs⟩ cfg).all (b == ·) &&
        (c.run v (rdregEvents cfg rs0 idx b)).answersFrom cfg .closed (v.run (rdregEvents cfg rs0 idx b)) more) := by
  simp [rdregEvents, Controller.answersFrom, Controller.run, Controller.observe, LineView.run, LineView.after,
    ReadWindow.allows, ReadWindow.after, Controller.latch, Controller.drives, LineView.readPhase, LineView.busByte]
  cases Controller.answer ⟨some idx, c.regs⟩ cfg <;> rfl

end Sys2Proof.Machine
end

