-- ==== Sys2Proof/Laws/Memory.lean ====
section
/-! SUPPORT. The laws of memory (20_memory R61, R64): read after write, other cells kept, the canonical form kept by
every operation, and the whole-plane write equal to the loop of single writes it stands for. -/

namespace Sys2Proof.Machine

variable (m : Memory) (a b : Nat) (v : Byte) (f : Nat → Byte) (n : Nat)

/-! ### Single cells -/

@[simp] theorem Memory.read_nil : Memory.read [] a = none := rfl

theorem Memory.read_write_same : (m.write a v).read a = some v := by
  induction m with
  | nil => simp [Memory.write, Memory.read]
  | cons c m ih =>
    simp only [Memory.write]
    split
    · simp [Memory.read]
    · split
      · simp [Memory.read]
      · simp [Memory.read, ih]; omega

theorem Memory.read_write_other (h : b ≠ a) : (m.write a v).read b = m.read b := by
  induction m with
  | nil => simp [Memory.write, Memory.read, Ne.symm h]
  | cons c m ih =>
    simp only [Memory.write]
    split
    · simp [Memory.read, Ne.symm h]
    · split
      · rename_i hac; simp [Memory.read, Ne.symm h, ← hac]
      · simp [Memory.read, ih]

theorem Memory.mem_write {c : Host.Cell} (h : c ∈ m.write a v) : c = (a, v) ∨ c ∈ m := by
  induction m with
  | nil => simpa [Memory.write] using h
  | cons d m ih =>
    simp only [Memory.write] at h
    split at h
    · simpa using h
    · split at h
      · rcases List.mem_cons.mp h with h | h
        · exact .inl h
        · exact .inr (List.mem_cons_of_mem _ h)
      · rcases List.mem_cons.mp h with h | h
        · exact .inr (h ▸ List.mem_cons_self)
        · exact (ih h).imp_right (List.mem_cons_of_mem _)

theorem Memory.write_wf (h : m.wf) : (m.write a v).wf := by
  induction m with
  | nil => simp [Memory.write]
  | cons c m ih =>
    obtain ⟨hc, hm⟩ := List.pairwise_cons.mp h
    simp only [Memory.write]
    split
    · rename_i hac
      refine List.pairwise_cons.mpr ⟨fun d hd => ?_, h⟩
      rcases List.mem_cons.mp hd with rfl | hd
      · exact hac
      · exact lt_trans hac (hc d hd)
    · split
      · rename_i hac
        exact List.pairwise_cons.mpr ⟨fun d hd => hac ▸ hc d hd, hm⟩
      · refine List.pairwise_cons.mpr ⟨fun d hd => ?_, ih hm⟩
        rcases Memory.mem_write m a v hd with rfl | hd
        · show c.1 < a
          omega
        · exact hc d hd

/-! ### Whole planes -/

theorem mem_cellsFrom {c : Host.Cell} (h : c ∈ cellsFrom f n a) : a ≤ c.1 ∧ c.1 < a + n ∧ c.2 = f c.1 := by
  induction n generalizing a with
  | zero => simp [cellsFrom] at h
  | succ n ih =>
    rcases List.mem_cons.mp h with rfl | h
    · exact ⟨le_rfl, by omega, rfl⟩
    · obtain ⟨h1, h2, h3⟩ := ih (a + 1) h
      exact ⟨by omega, by omega, h3⟩

theorem cellsFrom_wf : Memory.wf (cellsFrom f n a) := by
  induction n generalizing a with
  | zero => exact List.Pairwise.nil
  | succ n ih =>
    refine List.pairwise_cons.mpr ⟨fun d hd => ?_, ih (a + 1)⟩
    have := (mem_cellsFrom (a + 1) f n hd).1
    show a < d.1
    omega

theorem Memory.read_append (m' : Memory) : Memory.read (m ++ m') b = (m.read b).or (Memory.read m' b) := by
  induction m with
  | nil => simp
  | cons c m ih =>
    show Memory.read (c :: (m ++ m')) b = _
    simp only [Memory.read]
    split
    · rfl
    · exact ih

theorem read_cellsFrom : Memory.read (cellsFrom f n a) b = if a ≤ b ∧ b < a + n then some (f b) else none := by
  induction n generalizing a with
  | zero => rw [if_neg (by omega)]; rfl
  | succ n ih =>
    simp only [cellsFrom, Memory.read]
    split
    · rename_i h
      rw [if_pos (by omega), h]
    · rename_i h
      rw [ih (a + 1)]
      exact if_congr (by omega) rfl rfl

theorem Memory.read_filter_from : Memory.read (m.filter fun c => decide (n ≤ c.1)) b = if n ≤ b then m.read b else none := by
  induction m with
  | nil => simp
  | cons c m ih =>
    by_cases hc : n ≤ c.1
    · rw [List.filter_cons_of_pos (by simpa using hc)]
      simp only [Memory.read, ih]
      by_cases hcb : c.1 = b
      · rw [if_pos hcb, if_pos hcb, if_pos (hcb ▸ hc)]
      · rw [if_neg hcb, if_neg hcb]
    · rw [List.filter_cons_of_neg (by simpa using hc), ih]
      split
      · rename_i hb
        rw [Memory.read, if_neg (by omega)]
      · rfl

/-- A whole-plane write sets every cell below `n` and keeps every other (R144, R150). -/
theorem Memory.read_writeAll : (m.writeAll n f).read b = if b < n then some (f b) else m.read b := by
  rw [Memory.writeAll, Memory.read_append, read_cellsFrom, Memory.read_filter_from]
  by_cases h : b < n
  · rw [if_pos ⟨by omega, by omega⟩, if_pos h]; rfl
  · rw [if_neg (by omega), if_pos (by omega), if_neg h]; rfl

theorem Memory.writeAll_wf (h : m.wf) : (m.writeAll n f).wf := by
  refine List.pairwise_append.mpr ⟨cellsFrom_wf 0 f n, List.Pairwise.filter _ h, fun c hc d hd => ?_⟩
  have h1 := mem_cellsFrom 0 f n hc
  have h2 := (List.mem_filter.mp hd).2
  have h3 : n ≤ d.1 := by simpa using h2
  omega

theorem Memory.mem_writeAll {c : Host.Cell} (h : c ∈ m.writeAll n f) : c.1 < n ∨ c ∈ m := by
  rcases List.mem_append.mp h with h | h
  · have := mem_cellsFrom 0 f n h
    exact .inl (by omega)
  · exact .inr (List.mem_filter.mp h).1

/-- Two memories in the canonical form that read the same are the same. -/
theorem Memory.ext_of_read {m m' : Memory} (hm : m.wf) (hm' : m'.wf) (h : ∀ a, m.read a = m'.read a) : m = m' := by
  have below : ∀ (c : Host.Cell) (l : Memory), Memory.wf (c :: l) → ∀ a, a ≤ c.1 → Memory.read l a = none := by
    intro c l hl a ha
    induction l with
    | nil => rfl
    | cons d l ih =>
      obtain ⟨h1, h2⟩ := List.pairwise_cons.mp hl
      have hd : c.1 < d.1 := h1 d List.mem_cons_self
      rw [Memory.read, if_neg (by omega)]
      exact ih (List.pairwise_cons.mpr ⟨fun e he => h1 e (List.mem_cons_of_mem _ he), (List.pairwise_cons.mp h2).2⟩)
  induction m generalizing m' with
  | nil =>
    cases m' with
    | nil => rfl
    | cons d m' => have := h d.1; simp [Memory.read] at this
  | cons c m ih =>
    cases m' with
    | nil => have := h c.1; simp [Memory.read] at this
    | cons d m' =>
      have hc := h c.1
      have hd := h d.1
      have hcd : c.1 = d.1 := by
        by_contra hne
        rcases lt_or_gt_of_ne hne with hlt | hgt
        · rw [Memory.read, if_pos rfl, Memory.read, if_neg (Ne.symm hne), below d m' hm' c.1 (le_of_lt hlt)] at hc
          exact absurd hc (by simp)
        · rw [Memory.read, if_neg hne, Memory.read, if_pos rfl, below c m hm d.1 (le_of_lt hgt)] at hd
          exact absurd hd (by simp)
      have hv : c.2 = d.2 := by
        rw [Memory.read, if_pos rfl, Memory.read, if_pos hcd.symm] at hc
        exact Option.some.inj hc
      have htl : m = m' := by
        refine ih (List.pairwise_cons.mp hm).2 (List.pairwise_cons.mp hm').2 fun a => ?_
        by_cases ha : a ≤ c.1
        · rw [below c m hm a ha, below d m' hm' a (hcd ▸ ha)]
        · have := h a
          rw [Memory.read, if_neg (by omega), Memory.read, if_neg (by omega)] at this
          exact this
      rw [Prod.ext hcd hv, htl]

/-- The whole-plane write is the loop of single writes of R144 and R150: cell 0 first, each in turn. -/
theorem Memory.writeAll_eq_loop (h : m.wf) :
    m.writeAll n f = (List.range n).foldl (fun m i => m.write i (f i)) m := by
  have hfold : ∀ k, ((List.range k).foldl (fun m i => m.write i (f i)) m).wf ∧
      ∀ b, ((List.range k).foldl (fun m i => m.write i (f i)) m).read b = if b < k then some (f b) else m.read b := by
    intro k
    induction k with
    | zero => exact ⟨h, fun b => by simp⟩
    | succ k ih =>
      rw [List.range_succ, List.foldl_append]
      refine ⟨Memory.write_wf _ _ _ ih.1, fun b => ?_⟩
      show Memory.read (Memory.write _ k (f k)) b = _
      by_cases hb : b = k
      · rw [hb, Memory.read_write_same, if_pos (by omega)]
      · rw [Memory.read_write_other _ _ _ _ hb, ih.2 b]
        exact if_congr (by omega) rfl rfl
  exact Memory.ext_of_read (Memory.writeAll_wf m f n h) (hfold n).1 fun b => by
    rw [Memory.read_writeAll, (hfold n).2 b]

/-! ### The state's planes -/

/-- The planes of the machine after reset are in the canonical form. -/
theorem State.reset_planes_wf : State.reset.cplane.wf ∧ State.reset.pplane.wf :=
  ⟨List.Pairwise.nil, List.Pairwise.nil⟩

/-- Filling a plane keeps both planes' canonical form. -/
theorem State.fillPlane_wf (s : State) (pl : Plane) (hc : s.cplane.wf) (hp : s.pplane.wf) :
    (s.fillPlane pl f).cplane.wf ∧ (s.fillPlane pl f).pplane.wf := by
  cases pl
  · exact ⟨Memory.writeAll_wf _ f _ hc, hp⟩
  · exact ⟨hc, Memory.writeAll_wf _ f _ hp⟩

/-- What a cell of a filled plane reads (R150): the contents inside the plane, what it read before outside. -/
theorem State.fillPlane_read (s : State) (pl : Plane) :
    ((s.fillPlane pl f).plane pl).read a =
      if a < s.cfg.planeSize pl then some (f a) else (s.plane pl).read a := by
  cases pl <;> exact Memory.read_writeAll _ _ f _

end Sys2Proof.Machine
end

