-- ==== Sys2Proof/Laws/State.lean ====
section
/-! SUPPORT. The fields of a state after each named update, so that no proof unfolds a record update. -/

namespace Sys2Proof.Machine

variable (s : State)

/-! `State.emit` -/

@[simp] theorem State.emit_cfg (ev : LineEvent) : (s.emit ev).cfg = s.cfg := rfl
@[simp] theorem State.emit_dir (ev : LineEvent) : (s.emit ev).dir = s.dir := rfl
@[simp] theorem State.emit_dout (ev : LineEvent) : (s.emit ev).dout = s.dout := rfl
@[simp] theorem State.emit_ncs (ev : LineEvent) : (s.emit ev).ncs = s.ncs := rfl
@[simp] theorem State.emit_rs (ev : LineEvent) : (s.emit ev).rs = s.rs := rfl
@[simp] theorem State.emit_rw (ev : LineEvent) : (s.emit ev).rw = s.rw := rfl
@[simp] theorem State.emit_e (ev : LineEvent) : (s.emit ev).e = s.e := rfl
@[simp] theorem State.emit_mode (ev : LineEvent) : (s.emit ev).mode = s.mode := rfl
@[simp] theorem State.emit_cplane (ev : LineEvent) : (s.emit ev).cplane = s.cplane := rfl
@[simp] theorem State.emit_pplane (ev : LineEvent) : (s.emit ev).pplane = s.pplane := rfl
@[simp] theorem State.emit_prev (ev : LineEvent) : (s.emit ev).prev = s.prev := rfl
@[simp] theorem State.emit_prevValid (ev : LineEvent) : (s.emit ev).prevValid = s.prevValid := rfl
@[simp] theorem State.emit_lstate (ev : LineEvent) : (s.emit ev).lstate = s.lstate := rfl
@[simp] theorem State.emit_txn (ev : LineEvent) : (s.emit ev).txn = s.txn := rfl
@[simp] theorem State.emit_seq (ev : LineEvent) : (s.emit ev).seq = s.seq := rfl
@[simp] theorem State.emit_verifyResult (ev : LineEvent) : (s.emit ev).verifyResult = s.verifyResult := rfl
@[simp] theorem State.emit_faults (ev : LineEvent) : (s.emit ev).faults = s.faults := rfl
@[simp] theorem State.emit_events (ev : LineEvent) : (s.emit ev).events = s.events ++ [ev] := rfl
@[simp] theorem State.emit_inputs (ev : LineEvent) : (s.emit ev).inputs = s.inputs := rfl

/-! `State.setInputs` -/

@[simp] theorem State.setInputs_cfg (i : Inputs) : (s.setInputs i).cfg = s.cfg := rfl
@[simp] theorem State.setInputs_dir (i : Inputs) : (s.setInputs i).dir = s.dir := rfl
@[simp] theorem State.setInputs_dout (i : Inputs) : (s.setInputs i).dout = s.dout := rfl
@[simp] theorem State.setInputs_ncs (i : Inputs) : (s.setInputs i).ncs = s.ncs := rfl
@[simp] theorem State.setInputs_rs (i : Inputs) : (s.setInputs i).rs = s.rs := rfl
@[simp] theorem State.setInputs_rw (i : Inputs) : (s.setInputs i).rw = s.rw := rfl
@[simp] theorem State.setInputs_e (i : Inputs) : (s.setInputs i).e = s.e := rfl
@[simp] theorem State.setInputs_mode (i : Inputs) : (s.setInputs i).mode = s.mode := rfl
@[simp] theorem State.setInputs_cplane (i : Inputs) : (s.setInputs i).cplane = s.cplane := rfl
@[simp] theorem State.setInputs_pplane (i : Inputs) : (s.setInputs i).pplane = s.pplane := rfl
@[simp] theorem State.setInputs_prev (i : Inputs) : (s.setInputs i).prev = s.prev := rfl
@[simp] theorem State.setInputs_prevValid (i : Inputs) : (s.setInputs i).prevValid = s.prevValid := rfl
@[simp] theorem State.setInputs_lstate (i : Inputs) : (s.setInputs i).lstate = s.lstate := rfl
@[simp] theorem State.setInputs_txn (i : Inputs) : (s.setInputs i).txn = s.txn := rfl
@[simp] theorem State.setInputs_seq (i : Inputs) : (s.setInputs i).seq = s.seq := rfl
@[simp] theorem State.setInputs_verifyResult (i : Inputs) : (s.setInputs i).verifyResult = s.verifyResult := rfl
@[simp] theorem State.setInputs_faults (i : Inputs) : (s.setInputs i).faults = s.faults := rfl
@[simp] theorem State.setInputs_events (i : Inputs) : (s.setInputs i).events = s.events := rfl
@[simp] theorem State.setInputs_inputs (i : Inputs) : (s.setInputs i).inputs = i := rfl

/-! `State.setDirection` -/

@[simp] theorem State.setDirection_cfg (d : Direction) : (s.setDirection d).cfg = s.cfg := rfl
@[simp] theorem State.setDirection_dir (d : Direction) : (s.setDirection d).dir = d := rfl
@[simp] theorem State.setDirection_dout (d : Direction) : (s.setDirection d).dout = s.dout := rfl
@[simp] theorem State.setDirection_ncs (d : Direction) : (s.setDirection d).ncs = s.ncs := rfl
@[simp] theorem State.setDirection_rs (d : Direction) : (s.setDirection d).rs = s.rs := rfl
@[simp] theorem State.setDirection_rw (d : Direction) : (s.setDirection d).rw = s.rw := rfl
@[simp] theorem State.setDirection_e (d : Direction) : (s.setDirection d).e = s.e := rfl
@[simp] theorem State.setDirection_mode (d : Direction) : (s.setDirection d).mode = s.mode := rfl
@[simp] theorem State.setDirection_cplane (d : Direction) : (s.setDirection d).cplane = s.cplane := rfl
@[simp] theorem State.setDirection_pplane (d : Direction) : (s.setDirection d).pplane = s.pplane := rfl
@[simp] theorem State.setDirection_prev (d : Direction) : (s.setDirection d).prev = s.prev := rfl
@[simp] theorem State.setDirection_prevValid (d : Direction) : (s.setDirection d).prevValid = s.prevValid := rfl
@[simp] theorem State.setDirection_lstate (d : Direction) : (s.setDirection d).lstate = s.lstate := rfl
@[simp] theorem State.setDirection_txn (d : Direction) : (s.setDirection d).txn = s.txn := rfl
@[simp] theorem State.setDirection_seq (d : Direction) : (s.setDirection d).seq = s.seq := rfl
@[simp] theorem State.setDirection_verifyResult (d : Direction) : (s.setDirection d).verifyResult = s.verifyResult := rfl
@[simp] theorem State.setDirection_faults (d : Direction) : (s.setDirection d).faults = s.faults := rfl
@[simp] theorem State.setDirection_events (d : Direction) : (s.setDirection d).events = s.events ++ [.dir d] := rfl
@[simp] theorem State.setDirection_inputs (d : Direction) : (s.setDirection d).inputs = s.inputs := rfl

/-! `State.busWrite` -/

@[simp] theorem State.busWrite_cfg (v : Byte) : (s.busWrite v).cfg = s.cfg := rfl
@[simp] theorem State.busWrite_dir (v : Byte) : (s.busWrite v).dir = s.dir := rfl
@[simp] theorem State.busWrite_dout (v : Byte) : (s.busWrite v).dout = v := rfl
@[simp] theorem State.busWrite_ncs (v : Byte) : (s.busWrite v).ncs = s.ncs := rfl
@[simp] theorem State.busWrite_rs (v : Byte) : (s.busWrite v).rs = s.rs := rfl
@[simp] theorem State.busWrite_rw (v : Byte) : (s.busWrite v).rw = s.rw := rfl
@[simp] theorem State.busWrite_e (v : Byte) : (s.busWrite v).e = s.e := rfl
@[simp] theorem State.busWrite_mode (v : Byte) : (s.busWrite v).mode = s.mode := rfl
@[simp] theorem State.busWrite_cplane (v : Byte) : (s.busWrite v).cplane = s.cplane := rfl
@[simp] theorem State.busWrite_pplane (v : Byte) : (s.busWrite v).pplane = s.pplane := rfl
@[simp] theorem State.busWrite_prev (v : Byte) : (s.busWrite v).prev = s.prev := rfl
@[simp] theorem State.busWrite_prevValid (v : Byte) : (s.busWrite v).prevValid = s.prevValid := rfl
@[simp] theorem State.busWrite_lstate (v : Byte) : (s.busWrite v).lstate = s.lstate := rfl
@[simp] theorem State.busWrite_txn (v : Byte) : (s.busWrite v).txn = s.txn := rfl
@[simp] theorem State.busWrite_seq (v : Byte) : (s.busWrite v).seq = s.seq := rfl
@[simp] theorem State.busWrite_verifyResult (v : Byte) : (s.busWrite v).verifyResult = s.verifyResult := rfl
@[simp] theorem State.busWrite_faults (v : Byte) : (s.busWrite v).faults = s.faults := rfl
@[simp] theorem State.busWrite_events (v : Byte) : (s.busWrite v).events = s.events ++ [.data v] := rfl
@[simp] theorem State.busWrite_inputs (v : Byte) : (s.busWrite v).inputs = s.inputs := rfl

/-! `State.setCtl` -/

@[simp] theorem State.setCtl_cfg (ncs rs rw : Bit) : (s.setCtl ncs rs rw).cfg = s.cfg := rfl
@[simp] theorem State.setCtl_dir (ncs rs rw : Bit) : (s.setCtl ncs rs rw).dir = s.dir := rfl
@[simp] theorem State.setCtl_dout (ncs rs rw : Bit) : (s.setCtl ncs rs rw).dout = s.dout := rfl
@[simp] theorem State.setCtl_ncs (ncs rs rw : Bit) : (s.setCtl ncs rs rw).ncs = ncs := rfl
@[simp] theorem State.setCtl_rs (ncs rs rw : Bit) : (s.setCtl ncs rs rw).rs = rs := rfl
@[simp] theorem State.setCtl_rw (ncs rs rw : Bit) : (s.setCtl ncs rs rw).rw = rw := rfl
@[simp] theorem State.setCtl_e (ncs rs rw : Bit) : (s.setCtl ncs rs rw).e = s.e := rfl
@[simp] theorem State.setCtl_mode (ncs rs rw : Bit) : (s.setCtl ncs rs rw).mode = s.mode := rfl
@[simp] theorem State.setCtl_cplane (ncs rs rw : Bit) : (s.setCtl ncs rs rw).cplane = s.cplane := rfl
@[simp] theorem State.setCtl_pplane (ncs rs rw : Bit) : (s.setCtl ncs rs rw).pplane = s.pplane := rfl
@[simp] theorem State.setCtl_prev (ncs rs rw : Bit) : (s.setCtl ncs rs rw).prev = s.prev := rfl
@[simp] theorem State.setCtl_prevValid (ncs rs rw : Bit) : (s.setCtl ncs rs rw).prevValid = s.prevValid := rfl
@[simp] theorem State.setCtl_lstate (ncs rs rw : Bit) : (s.setCtl ncs rs rw).lstate = s.lstate := rfl
@[simp] theorem State.setCtl_txn (ncs rs rw : Bit) : (s.setCtl ncs rs rw).txn = s.txn := rfl
@[simp] theorem State.setCtl_seq (ncs rs rw : Bit) : (s.setCtl ncs rs rw).seq = s.seq := rfl
@[simp] theorem State.setCtl_verifyResult (ncs rs rw : Bit) : (s.setCtl ncs rs rw).verifyResult = s.verifyResult := rfl
@[simp] theorem State.setCtl_faults (ncs rs rw : Bit) : (s.setCtl ncs rs rw).faults = s.faults := rfl
@[simp] theorem State.setCtl_events (ncs rs rw : Bit) : (s.setCtl ncs rs rw).events = s.events ++ [.ctl ncs rs rw] := rfl
@[simp] theorem State.setCtl_inputs (ncs rs rw : Bit) : (s.setCtl ncs rs rw).inputs = s.inputs := rfl

/-! `State.setEnable` -/

@[simp] theorem State.setEnable_cfg (e : Bit) : (s.setEnable e).cfg = s.cfg := rfl
@[simp] theorem State.setEnable_dir (e : Bit) : (s.setEnable e).dir = s.dir := rfl
@[simp] theorem State.setEnable_dout (e : Bit) : (s.setEnable e).dout = s.dout := rfl
@[simp] theorem State.setEnable_ncs (e : Bit) : (s.setEnable e).ncs = s.ncs := rfl
@[simp] theorem State.setEnable_rs (e : Bit) : (s.setEnable e).rs = s.rs := rfl
@[simp] theorem State.setEnable_rw (e : Bit) : (s.setEnable e).rw = s.rw := rfl
@[simp] theorem State.setEnable_e (e : Bit) : (s.setEnable e).e = e := rfl
@[simp] theorem State.setEnable_mode (e : Bit) : (s.setEnable e).mode = s.mode := rfl
@[simp] theorem State.setEnable_cplane (e : Bit) : (s.setEnable e).cplane = s.cplane := rfl
@[simp] theorem State.setEnable_pplane (e : Bit) : (s.setEnable e).pplane = s.pplane := rfl
@[simp] theorem State.setEnable_prev (e : Bit) : (s.setEnable e).prev = s.prev := rfl
@[simp] theorem State.setEnable_prevValid (e : Bit) : (s.setEnable e).prevValid = s.prevValid := rfl
@[simp] theorem State.setEnable_lstate (e : Bit) : (s.setEnable e).lstate = s.lstate := rfl
@[simp] theorem State.setEnable_txn (e : Bit) : (s.setEnable e).txn = s.txn := rfl
@[simp] theorem State.setEnable_seq (e : Bit) : (s.setEnable e).seq = s.seq := rfl
@[simp] theorem State.setEnable_verifyResult (e : Bit) : (s.setEnable e).verifyResult = s.verifyResult := rfl
@[simp] theorem State.setEnable_faults (e : Bit) : (s.setEnable e).faults = s.faults := rfl
@[simp] theorem State.setEnable_events (e : Bit) : (s.setEnable e).events = s.events ++ [.strobe e] := rfl
@[simp] theorem State.setEnable_inputs (e : Bit) : (s.setEnable e).inputs = s.inputs := rfl

/-! `State.delay` -/

@[simp] theorem State.delay_cfg (n : Nat) : (s.delay n).cfg = s.cfg := rfl
@[simp] theorem State.delay_dir (n : Nat) : (s.delay n).dir = s.dir := rfl
@[simp] theorem State.delay_dout (n : Nat) : (s.delay n).dout = s.dout := rfl
@[simp] theorem State.delay_ncs (n : Nat) : (s.delay n).ncs = s.ncs := rfl
@[simp] theorem State.delay_rs (n : Nat) : (s.delay n).rs = s.rs := rfl
@[simp] theorem State.delay_rw (n : Nat) : (s.delay n).rw = s.rw := rfl
@[simp] theorem State.delay_e (n : Nat) : (s.delay n).e = s.e := rfl
@[simp] theorem State.delay_mode (n : Nat) : (s.delay n).mode = s.mode := rfl
@[simp] theorem State.delay_cplane (n : Nat) : (s.delay n).cplane = s.cplane := rfl
@[simp] theorem State.delay_pplane (n : Nat) : (s.delay n).pplane = s.pplane := rfl
@[simp] theorem State.delay_prev (n : Nat) : (s.delay n).prev = s.prev := rfl
@[simp] theorem State.delay_prevValid (n : Nat) : (s.delay n).prevValid = s.prevValid := rfl
@[simp] theorem State.delay_lstate (n : Nat) : (s.delay n).lstate = s.lstate := rfl
@[simp] theorem State.delay_txn (n : Nat) : (s.delay n).txn = s.txn := rfl
@[simp] theorem State.delay_seq (n : Nat) : (s.delay n).seq = s.seq := rfl
@[simp] theorem State.delay_verifyResult (n : Nat) : (s.delay n).verifyResult = s.verifyResult := rfl
@[simp] theorem State.delay_faults (n : Nat) : (s.delay n).faults = s.faults := rfl
@[simp] theorem State.delay_events (n : Nat) : (s.delay n).events = s.events ++ [.delay n] := rfl
@[simp] theorem State.delay_inputs (n : Nat) : (s.delay n).inputs = s.inputs := rfl

/-! `State.setTxn` -/

@[simp] theorem State.setTxn_cfg (t : Option BusTransaction) : (s.setTxn t).cfg = s.cfg := rfl
@[simp] theorem State.setTxn_dir (t : Option BusTransaction) : (s.setTxn t).dir = s.dir := rfl
@[simp] theorem State.setTxn_dout (t : Option BusTransaction) : (s.setTxn t).dout = s.dout := rfl
@[simp] theorem State.setTxn_ncs (t : Option BusTransaction) : (s.setTxn t).ncs = s.ncs := rfl
@[simp] theorem State.setTxn_rs (t : Option BusTransaction) : (s.setTxn t).rs = s.rs := rfl
@[simp] theorem State.setTxn_rw (t : Option BusTransaction) : (s.setTxn t).rw = s.rw := rfl
@[simp] theorem State.setTxn_e (t : Option BusTransaction) : (s.setTxn t).e = s.e := rfl
@[simp] theorem State.setTxn_mode (t : Option BusTransaction) : (s.setTxn t).mode = s.mode := rfl
@[simp] theorem State.setTxn_cplane (t : Option BusTransaction) : (s.setTxn t).cplane = s.cplane := rfl
@[simp] theorem State.setTxn_pplane (t : Option BusTransaction) : (s.setTxn t).pplane = s.pplane := rfl
@[simp] theorem State.setTxn_prev (t : Option BusTransaction) : (s.setTxn t).prev = s.prev := rfl
@[simp] theorem State.setTxn_prevValid (t : Option BusTransaction) : (s.setTxn t).prevValid = s.prevValid := rfl
@[simp] theorem State.setTxn_lstate (t : Option BusTransaction) : (s.setTxn t).lstate = s.lstate := rfl
@[simp] theorem State.setTxn_txn (t : Option BusTransaction) : (s.setTxn t).txn = t := rfl
@[simp] theorem State.setTxn_seq (t : Option BusTransaction) : (s.setTxn t).seq = s.seq := rfl
@[simp] theorem State.setTxn_verifyResult (t : Option BusTransaction) : (s.setTxn t).verifyResult = s.verifyResult := rfl
@[simp] theorem State.setTxn_faults (t : Option BusTransaction) : (s.setTxn t).faults = s.faults := rfl
@[simp] theorem State.setTxn_events (t : Option BusTransaction) : (s.setTxn t).events = s.events := rfl
@[simp] theorem State.setTxn_inputs (t : Option BusTransaction) : (s.setTxn t).inputs = s.inputs := rfl

/-! `State.atStep` -/

@[simp] theorem State.atStep_cfg (k : Nat) : (s.atStep k).cfg = s.cfg := rfl
@[simp] theorem State.atStep_dir (k : Nat) : (s.atStep k).dir = s.dir := rfl
@[simp] theorem State.atStep_dout (k : Nat) : (s.atStep k).dout = s.dout := rfl
@[simp] theorem State.atStep_ncs (k : Nat) : (s.atStep k).ncs = s.ncs := rfl
@[simp] theorem State.atStep_rs (k : Nat) : (s.atStep k).rs = s.rs := rfl
@[simp] theorem State.atStep_rw (k : Nat) : (s.atStep k).rw = s.rw := rfl
@[simp] theorem State.atStep_e (k : Nat) : (s.atStep k).e = s.e := rfl
@[simp] theorem State.atStep_mode (k : Nat) : (s.atStep k).mode = s.mode := rfl
@[simp] theorem State.atStep_cplane (k : Nat) : (s.atStep k).cplane = s.cplane := rfl
@[simp] theorem State.atStep_pplane (k : Nat) : (s.atStep k).pplane = s.pplane := rfl
@[simp] theorem State.atStep_prev (k : Nat) : (s.atStep k).prev = s.prev := rfl
@[simp] theorem State.atStep_prevValid (k : Nat) : (s.atStep k).prevValid = s.prevValid := rfl
@[simp] theorem State.atStep_lstate (k : Nat) : (s.atStep k).lstate = s.lstate := rfl
@[simp] theorem State.atStep_txn (k : Nat) : (s.atStep k).txn = s.txn.map fun t => { t with step := k } := rfl
@[simp] theorem State.atStep_seq (k : Nat) : (s.atStep k).seq = s.seq := rfl
@[simp] theorem State.atStep_verifyResult (k : Nat) : (s.atStep k).verifyResult = s.verifyResult := rfl
@[simp] theorem State.atStep_faults (k : Nat) : (s.atStep k).faults = s.faults := rfl
@[simp] theorem State.atStep_events (k : Nat) : (s.atStep k).events = s.events := rfl
@[simp] theorem State.atStep_inputs (k : Nat) : (s.atStep k).inputs = s.inputs := rfl

/-! `State.withTxnValue` -/

@[simp] theorem State.withTxnValue_cfg (v : Byte) : (s.withTxnValue v).cfg = s.cfg := rfl
@[simp] theorem State.withTxnValue_dir (v : Byte) : (s.withTxnValue v).dir = s.dir := rfl
@[simp] theorem State.withTxnValue_dout (v : Byte) : (s.withTxnValue v).dout = s.dout := rfl
@[simp] theorem State.withTxnValue_ncs (v : Byte) : (s.withTxnValue v).ncs = s.ncs := rfl
@[simp] theorem State.withTxnValue_rs (v : Byte) : (s.withTxnValue v).rs = s.rs := rfl
@[simp] theorem State.withTxnValue_rw (v : Byte) : (s.withTxnValue v).rw = s.rw := rfl
@[simp] theorem State.withTxnValue_e (v : Byte) : (s.withTxnValue v).e = s.e := rfl
@[simp] theorem State.withTxnValue_mode (v : Byte) : (s.withTxnValue v).mode = s.mode := rfl
@[simp] theorem State.withTxnValue_cplane (v : Byte) : (s.withTxnValue v).cplane = s.cplane := rfl
@[simp] theorem State.withTxnValue_pplane (v : Byte) : (s.withTxnValue v).pplane = s.pplane := rfl
@[simp] theorem State.withTxnValue_prev (v : Byte) : (s.withTxnValue v).prev = s.prev := rfl
@[simp] theorem State.withTxnValue_prevValid (v : Byte) : (s.withTxnValue v).prevValid = s.prevValid := rfl
@[simp] theorem State.withTxnValue_lstate (v : Byte) : (s.withTxnValue v).lstate = s.lstate := rfl
@[simp] theorem State.withTxnValue_txn (v : Byte) : (s.withTxnValue v).txn = s.txn.map fun t => { t with value := v } := rfl
@[simp] theorem State.withTxnValue_seq (v : Byte) : (s.withTxnValue v).seq = s.seq := rfl
@[simp] theorem State.withTxnValue_verifyResult (v : Byte) : (s.withTxnValue v).verifyResult = s.verifyResult := rfl
@[simp] theorem State.withTxnValue_faults (v : Byte) : (s.withTxnValue v).faults = s.faults := rfl
@[simp] theorem State.withTxnValue_events (v : Byte) : (s.withTxnValue v).events = s.events := rfl
@[simp] theorem State.withTxnValue_inputs (v : Byte) : (s.withTxnValue v).inputs = s.inputs := rfl

/-! `State.setMode` -/

@[simp] theorem State.setMode_cfg (m : VideoMode) : (s.setMode m).cfg = s.cfg := rfl
@[simp] theorem State.setMode_dir (m : VideoMode) : (s.setMode m).dir = s.dir := rfl
@[simp] theorem State.setMode_dout (m : VideoMode) : (s.setMode m).dout = s.dout := rfl
@[simp] theorem State.setMode_ncs (m : VideoMode) : (s.setMode m).ncs = s.ncs := rfl
@[simp] theorem State.setMode_rs (m : VideoMode) : (s.setMode m).rs = s.rs := rfl
@[simp] theorem State.setMode_rw (m : VideoMode) : (s.setMode m).rw = s.rw := rfl
@[simp] theorem State.setMode_e (m : VideoMode) : (s.setMode m).e = s.e := rfl
@[simp] theorem State.setMode_mode (m : VideoMode) : (s.setMode m).mode = m := rfl
@[simp] theorem State.setMode_cplane (m : VideoMode) : (s.setMode m).cplane = s.cplane := rfl
@[simp] theorem State.setMode_pplane (m : VideoMode) : (s.setMode m).pplane = s.pplane := rfl
@[simp] theorem State.setMode_prev (m : VideoMode) : (s.setMode m).prev = s.prev := rfl
@[simp] theorem State.setMode_prevValid (m : VideoMode) : (s.setMode m).prevValid = s.prevValid := rfl
@[simp] theorem State.setMode_lstate (m : VideoMode) : (s.setMode m).lstate = s.lstate := rfl
@[simp] theorem State.setMode_txn (m : VideoMode) : (s.setMode m).txn = s.txn := rfl
@[simp] theorem State.setMode_seq (m : VideoMode) : (s.setMode m).seq = s.seq := rfl
@[simp] theorem State.setMode_verifyResult (m : VideoMode) : (s.setMode m).verifyResult = s.verifyResult := rfl
@[simp] theorem State.setMode_faults (m : VideoMode) : (s.setMode m).faults = s.faults := rfl
@[simp] theorem State.setMode_events (m : VideoMode) : (s.setMode m).events = s.events := rfl
@[simp] theorem State.setMode_inputs (m : VideoMode) : (s.setMode m).inputs = s.inputs := rfl

/-! `State.setLoop` -/

@[simp] theorem State.setLoop_cfg (l : LoopState) : (s.setLoop l).cfg = s.cfg := rfl
@[simp] theorem State.setLoop_dir (l : LoopState) : (s.setLoop l).dir = s.dir := rfl
@[simp] theorem State.setLoop_dout (l : LoopState) : (s.setLoop l).dout = s.dout := rfl
@[simp] theorem State.setLoop_ncs (l : LoopState) : (s.setLoop l).ncs = s.ncs := rfl
@[simp] theorem State.setLoop_rs (l : LoopState) : (s.setLoop l).rs = s.rs := rfl
@[simp] theorem State.setLoop_rw (l : LoopState) : (s.setLoop l).rw = s.rw := rfl
@[simp] theorem State.setLoop_e (l : LoopState) : (s.setLoop l).e = s.e := rfl
@[simp] theorem State.setLoop_mode (l : LoopState) : (s.setLoop l).mode = s.mode := rfl
@[simp] theorem State.setLoop_cplane (l : LoopState) : (s.setLoop l).cplane = s.cplane := rfl
@[simp] theorem State.setLoop_pplane (l : LoopState) : (s.setLoop l).pplane = s.pplane := rfl
@[simp] theorem State.setLoop_prev (l : LoopState) : (s.setLoop l).prev = s.prev := rfl
@[simp] theorem State.setLoop_prevValid (l : LoopState) : (s.setLoop l).prevValid = s.prevValid := rfl
@[simp] theorem State.setLoop_lstate (l : LoopState) : (s.setLoop l).lstate = l := rfl
@[simp] theorem State.setLoop_txn (l : LoopState) : (s.setLoop l).txn = s.txn := rfl
@[simp] theorem State.setLoop_seq (l : LoopState) : (s.setLoop l).seq = s.seq := rfl
@[simp] theorem State.setLoop_verifyResult (l : LoopState) : (s.setLoop l).verifyResult = s.verifyResult := rfl
@[simp] theorem State.setLoop_faults (l : LoopState) : (s.setLoop l).faults = s.faults := rfl
@[simp] theorem State.setLoop_events (l : LoopState) : (s.setLoop l).events = s.events := rfl
@[simp] theorem State.setLoop_inputs (l : LoopState) : (s.setLoop l).inputs = s.inputs := rfl

/-! `State.recordSample` -/

@[simp] theorem State.recordSample_cfg (key : Word) : (s.recordSample key).cfg = s.cfg := rfl
@[simp] theorem State.recordSample_dir (key : Word) : (s.recordSample key).dir = s.dir := rfl
@[simp] theorem State.recordSample_dout (key : Word) : (s.recordSample key).dout = s.dout := rfl
@[simp] theorem State.recordSample_ncs (key : Word) : (s.recordSample key).ncs = s.ncs := rfl
@[simp] theorem State.recordSample_rs (key : Word) : (s.recordSample key).rs = s.rs := rfl
@[simp] theorem State.recordSample_rw (key : Word) : (s.recordSample key).rw = s.rw := rfl
@[simp] theorem State.recordSample_e (key : Word) : (s.recordSample key).e = s.e := rfl
@[simp] theorem State.recordSample_mode (key : Word) : (s.recordSample key).mode = s.mode := rfl
@[simp] theorem State.recordSample_cplane (key : Word) : (s.recordSample key).cplane = s.cplane := rfl
@[simp] theorem State.recordSample_pplane (key : Word) : (s.recordSample key).pplane = s.pplane := rfl
@[simp] theorem State.recordSample_prev (key : Word) : (s.recordSample key).prev = key := rfl
@[simp] theorem State.recordSample_prevValid (key : Word) : (s.recordSample key).prevValid = true := rfl
@[simp] theorem State.recordSample_lstate (key : Word) : (s.recordSample key).lstate = s.lstate := rfl
@[simp] theorem State.recordSample_txn (key : Word) : (s.recordSample key).txn = s.txn := rfl
@[simp] theorem State.recordSample_seq (key : Word) : (s.recordSample key).seq = s.seq := rfl
@[simp] theorem State.recordSample_verifyResult (key : Word) : (s.recordSample key).verifyResult = s.verifyResult := rfl
@[simp] theorem State.recordSample_faults (key : Word) : (s.recordSample key).faults = s.faults := rfl
@[simp] theorem State.recordSample_events (key : Word) : (s.recordSample key).events = s.events := rfl
@[simp] theorem State.recordSample_inputs (key : Word) : (s.recordSample key).inputs = s.inputs := rfl

/-! `State.setSeq` -/

@[simp] theorem State.setSeq_cfg (q : SeqPhase) : (s.setSeq q).cfg = s.cfg := rfl
@[simp] theorem State.setSeq_dir (q : SeqPhase) : (s.setSeq q).dir = s.dir := rfl
@[simp] theorem State.setSeq_dout (q : SeqPhase) : (s.setSeq q).dout = s.dout := rfl
@[simp] theorem State.setSeq_ncs (q : SeqPhase) : (s.setSeq q).ncs = s.ncs := rfl
@[simp] theorem State.setSeq_rs (q : SeqPhase) : (s.setSeq q).rs = s.rs := rfl
@[simp] theorem State.setSeq_rw (q : SeqPhase) : (s.setSeq q).rw = s.rw := rfl
@[simp] theorem State.setSeq_e (q : SeqPhase) : (s.setSeq q).e = s.e := rfl
@[simp] theorem State.setSeq_mode (q : SeqPhase) : (s.setSeq q).mode = s.mode := rfl
@[simp] theorem State.setSeq_cplane (q : SeqPhase) : (s.setSeq q).cplane = s.cplane := rfl
@[simp] theorem State.setSeq_pplane (q : SeqPhase) : (s.setSeq q).pplane = s.pplane := rfl
@[simp] theorem State.setSeq_prev (q : SeqPhase) : (s.setSeq q).prev = s.prev := rfl
@[simp] theorem State.setSeq_prevValid (q : SeqPhase) : (s.setSeq q).prevValid = s.prevValid := rfl
@[simp] theorem State.setSeq_lstate (q : SeqPhase) : (s.setSeq q).lstate = s.lstate := rfl
@[simp] theorem State.setSeq_txn (q : SeqPhase) : (s.setSeq q).txn = s.txn := rfl
@[simp] theorem State.setSeq_seq (q : SeqPhase) : (s.setSeq q).seq = q := rfl
@[simp] theorem State.setSeq_verifyResult (q : SeqPhase) : (s.setSeq q).verifyResult = s.verifyResult := rfl
@[simp] theorem State.setSeq_faults (q : SeqPhase) : (s.setSeq q).faults = s.faults := rfl
@[simp] theorem State.setSeq_events (q : SeqPhase) : (s.setSeq q).events = s.events := rfl
@[simp] theorem State.setSeq_inputs (q : SeqPhase) : (s.setSeq q).inputs = s.inputs := rfl

/-! `State.setVerify` -/

@[simp] theorem State.setVerify_cfg (mask : BitVec 16) : (s.setVerify mask).cfg = s.cfg := rfl
@[simp] theorem State.setVerify_dir (mask : BitVec 16) : (s.setVerify mask).dir = s.dir := rfl
@[simp] theorem State.setVerify_dout (mask : BitVec 16) : (s.setVerify mask).dout = s.dout := rfl
@[simp] theorem State.setVerify_ncs (mask : BitVec 16) : (s.setVerify mask).ncs = s.ncs := rfl
@[simp] theorem State.setVerify_rs (mask : BitVec 16) : (s.setVerify mask).rs = s.rs := rfl
@[simp] theorem State.setVerify_rw (mask : BitVec 16) : (s.setVerify mask).rw = s.rw := rfl
@[simp] theorem State.setVerify_e (mask : BitVec 16) : (s.setVerify mask).e = s.e := rfl
@[simp] theorem State.setVerify_mode (mask : BitVec 16) : (s.setVerify mask).mode = s.mode := rfl
@[simp] theorem State.setVerify_cplane (mask : BitVec 16) : (s.setVerify mask).cplane = s.cplane := rfl
@[simp] theorem State.setVerify_pplane (mask : BitVec 16) : (s.setVerify mask).pplane = s.pplane := rfl
@[simp] theorem State.setVerify_prev (mask : BitVec 16) : (s.setVerify mask).prev = s.prev := rfl
@[simp] theorem State.setVerify_prevValid (mask : BitVec 16) : (s.setVerify mask).prevValid = s.prevValid := rfl
@[simp] theorem State.setVerify_lstate (mask : BitVec 16) : (s.setVerify mask).lstate = s.lstate := rfl
@[simp] theorem State.setVerify_txn (mask : BitVec 16) : (s.setVerify mask).txn = s.txn := rfl
@[simp] theorem State.setVerify_seq (mask : BitVec 16) : (s.setVerify mask).seq = s.seq := rfl
@[simp] theorem State.setVerify_verifyResult (mask : BitVec 16) : (s.setVerify mask).verifyResult = some mask := rfl
@[simp] theorem State.setVerify_faults (mask : BitVec 16) : (s.setVerify mask).faults = s.faults := rfl
@[simp] theorem State.setVerify_events (mask : BitVec 16) : (s.setVerify mask).events = s.events := rfl
@[simp] theorem State.setVerify_inputs (mask : BitVec 16) : (s.setVerify mask).inputs = s.inputs := rfl

/-! `State.setPlane`: the only update of a plane -/

@[simp] theorem State.setPlane_cfg (pl : Plane) (m : Memory) : (s.setPlane pl m).cfg = s.cfg := by cases pl <;> rfl
@[simp] theorem State.setPlane_dir (pl : Plane) (m : Memory) : (s.setPlane pl m).dir = s.dir := by cases pl <;> rfl
@[simp] theorem State.setPlane_dout (pl : Plane) (m : Memory) : (s.setPlane pl m).dout = s.dout := by cases pl <;> rfl
@[simp] theorem State.setPlane_ncs (pl : Plane) (m : Memory) : (s.setPlane pl m).ncs = s.ncs := by cases pl <;> rfl
@[simp] theorem State.setPlane_rs (pl : Plane) (m : Memory) : (s.setPlane pl m).rs = s.rs := by cases pl <;> rfl
@[simp] theorem State.setPlane_rw (pl : Plane) (m : Memory) : (s.setPlane pl m).rw = s.rw := by cases pl <;> rfl
@[simp] theorem State.setPlane_e (pl : Plane) (m : Memory) : (s.setPlane pl m).e = s.e := by cases pl <;> rfl
@[simp] theorem State.setPlane_mode (pl : Plane) (m : Memory) : (s.setPlane pl m).mode = s.mode := by cases pl <;> rfl
@[simp] theorem State.setPlane_prev (pl : Plane) (m : Memory) : (s.setPlane pl m).prev = s.prev := by cases pl <;> rfl
@[simp] theorem State.setPlane_prevValid (pl : Plane) (m : Memory) : (s.setPlane pl m).prevValid = s.prevValid := by cases pl <;> rfl
@[simp] theorem State.setPlane_lstate (pl : Plane) (m : Memory) : (s.setPlane pl m).lstate = s.lstate := by cases pl <;> rfl
@[simp] theorem State.setPlane_txn (pl : Plane) (m : Memory) : (s.setPlane pl m).txn = s.txn := by cases pl <;> rfl
@[simp] theorem State.setPlane_seq (pl : Plane) (m : Memory) : (s.setPlane pl m).seq = s.seq := by cases pl <;> rfl
@[simp] theorem State.setPlane_verifyResult (pl : Plane) (m : Memory) : (s.setPlane pl m).verifyResult = s.verifyResult := by cases pl <;> rfl
@[simp] theorem State.setPlane_faults (pl : Plane) (m : Memory) : (s.setPlane pl m).faults = s.faults := by cases pl <;> rfl
@[simp] theorem State.setPlane_events (pl : Plane) (m : Memory) : (s.setPlane pl m).events = s.events := by cases pl <;> rfl
@[simp] theorem State.setPlane_inputs (pl : Plane) (m : Memory) : (s.setPlane pl m).inputs = s.inputs := by cases pl <;> rfl
@[simp] theorem State.setPlane_char_cplane (m : Memory) : (s.setPlane .char m).cplane = m := rfl
@[simp] theorem State.setPlane_char_pplane (m : Memory) : (s.setPlane .char m).pplane = s.pplane := rfl
@[simp] theorem State.setPlane_pix_cplane (m : Memory) : (s.setPlane .pix m).cplane = s.cplane := rfl
@[simp] theorem State.setPlane_pix_pplane (m : Memory) : (s.setPlane .pix m).pplane = m := rfl
@[simp] theorem State.plane_char : s.plane .char = s.cplane := rfl
@[simp] theorem State.plane_pix : s.plane .pix = s.pplane := rfl

/-! `State.recordFault`: the only update of FAULTS -/

@[simp] theorem State.recordFault_cfg (f : Fault) : (s.recordFault f).cfg = s.cfg := by unfold State.recordFault; split <;> rfl
@[simp] theorem State.recordFault_dir (f : Fault) : (s.recordFault f).dir = s.dir := by unfold State.recordFault; split <;> rfl
@[simp] theorem State.recordFault_dout (f : Fault) : (s.recordFault f).dout = s.dout := by unfold State.recordFault; split <;> rfl
@[simp] theorem State.recordFault_ncs (f : Fault) : (s.recordFault f).ncs = s.ncs := by unfold State.recordFault; split <;> rfl
@[simp] theorem State.recordFault_rs (f : Fault) : (s.recordFault f).rs = s.rs := by unfold State.recordFault; split <;> rfl
@[simp] theorem State.recordFault_rw (f : Fault) : (s.recordFault f).rw = s.rw := by unfold State.recordFault; split <;> rfl
@[simp] theorem State.recordFault_e (f : Fault) : (s.recordFault f).e = s.e := by unfold State.recordFault; split <;> rfl
@[simp] theorem State.recordFault_mode (f : Fault) : (s.recordFault f).mode = s.mode := by unfold State.recordFault; split <;> rfl
@[simp] theorem State.recordFault_cplane (f : Fault) : (s.recordFault f).cplane = s.cplane := by unfold State.recordFault; split <;> rfl
@[simp] theorem State.recordFault_pplane (f : Fault) : (s.recordFault f).pplane = s.pplane := by unfold State.recordFault; split <;> rfl
@[simp] theorem State.recordFault_prev (f : Fault) : (s.recordFault f).prev = s.prev := by unfold State.recordFault; split <;> rfl
@[simp] theorem State.recordFault_prevValid (f : Fault) : (s.recordFault f).prevValid = s.prevValid := by unfold State.recordFault; split <;> rfl
@[simp] theorem State.recordFault_lstate (f : Fault) : (s.recordFault f).lstate = s.lstate := by unfold State.recordFault; split <;> rfl
@[simp] theorem State.recordFault_txn (f : Fault) : (s.recordFault f).txn = s.txn := by unfold State.recordFault; split <;> rfl
@[simp] theorem State.recordFault_seq (f : Fault) : (s.recordFault f).seq = s.seq := by unfold State.recordFault; split <;> rfl
@[simp] theorem State.recordFault_verifyResult (f : Fault) : (s.recordFault f).verifyResult = s.verifyResult := by unfold State.recordFault; split <;> rfl
@[simp] theorem State.recordFault_events (f : Fault) : (s.recordFault f).events = s.events := by unfold State.recordFault; split <;> rfl
@[simp] theorem State.recordFault_inputs (f : Fault) : (s.recordFault f).inputs = s.inputs := by unfold State.recordFault; split <;> rfl

theorem State.recordFault_faults (f : Fault) :
    (s.recordFault f).faults = if f ∈ s.faults then s.faults else s.faults ++ [f] := by
  unfold State.recordFault; split <;> rfl

end Sys2Proof.Machine
end

