-- ==== Sys2Proof/Laws/Ops.lean ====
section
/-! SUPPORT. One lemma per shared operation that says everything it can do, to be cited instead of unfolded. -/

namespace Sys2Proof.Machine

variable (s : State)

/-! ### Inputs and free values -/

/-- A draw changes the draw counter and nothing else. -/
theorem State.draw_eq :
    s.draw = (Config.freeByte s.inputs.draws, s.setInputs { s.inputs with draws := s.inputs.draws + 1 }) := rfl

/-- The inputs after a read of some of them: a harness program never grows. -/
abbrev Inputs.Consumed (i i' : Inputs) : Prop := i'.ops = i.ops

/-- Sample() changes only the inputs. -/
theorem State.takeSample_spec : ∃ raw i, s.takeSample = (raw, s.setInputs i) ∧ s.inputs.Consumed i := by
  unfold State.takeSample
  split <;> exact ⟨_, _, rfl, rfl⟩

/-- BusIn() changes only the inputs. -/
theorem State.takeBusIn_spec : ∃ v i, s.takeBusIn = (v, s.setInputs i) ∧ s.inputs.Consumed i := by
  unfold State.takeBusIn
  split <;> exact ⟨_, _, rfl, rfl⟩

/-- The inputs after a read of the host's schedule: only the schedule and the count of free values have changed. -/
abbrev Inputs.PassTaken (i i' : Inputs) : Prop := i' = { i with passes := i'.passes, draws := i'.draws }

/-- Reading the host's schedule changes only the schedule. -/
theorem State.takePass_spec : ∃ p i, s.takePass = (p, s.setInputs i) ∧ s.inputs.PassTaken i := by
  unfold State.takePass
  split <;> exact ⟨_, _, rfl, rfl⟩

/-- Taking a fill's contents changes only the inputs. -/
theorem State.takeFill_spec : ∃ c i, s.takeFill = (c, s.setInputs i) ∧ s.inputs.Consumed i := by
  unfold State.takeFill
  split <;> exact ⟨_, _, rfl, rfl⟩

/-- With no harness program queued there is no operation to take. -/
theorem State.takeOp_of_nil (h : s.inputs.ops = []) : s.takeOp = none := by
  unfold State.takeOp; rw [h]

/-- The first queued word is taken off the harness program. -/
theorem State.takeOp_of_cons {w : Word} {rest : List Word} (h : s.inputs.ops = w :: rest) :
    s.takeOp = some (w, s.setInputs { s.inputs with ops := rest }) := by
  unfold State.takeOp; rw [h]

/-! ### Lines -/

/-- BUSRD appends one `BusRead` event and changes only the inputs besides (R110). -/
theorem State.busRead_spec :
    ∃ v i, s.busRead = (v, (s.setInputs i).emit (.busRead v)) ∧ s.inputs.Consumed i := by
  unfold State.busRead
  cases s.dir with
  | input =>
    obtain ⟨v, i, h, hi⟩ := s.takeBusIn_spec
    exact ⟨v, i, by simp only [h], hi⟩
  | output => exact ⟨_, _, rfl, rfl⟩

/-- PULSE leaves E low and appends its four events (R116). -/
theorem State.pulse_eq :
    s.pulse = { s with
      e := 0#1,
      events := s.events ++ [.strobe 1#1, .delay s.cfg.tEH, .strobe 0#1, .delay s.cfg.tEL] } := by
  simp [State.pulse, State.setEnable, State.delay, State.emit]

/-- The address phase of a register access (R119). -/
theorem State.addressPhase_eq (idx : BitVec 5) :
    s.addressPhase idx = { s with
      dir := .output, dout := indexByte idx, ncs := 0#1, rs := 0#1, rw := 0#1, e := 0#1,
      txn := s.txn.map fun t => { t with step := 5 },
      events := s.events ++ [.dir .output, .ctl 0#1 s.rs 0#1, .ctl 0#1 0#1 0#1, .data (indexByte idx),
        .strobe 1#1, .delay s.cfg.tEH, .strobe 0#1, .delay s.cfg.tEL] } := by
  cases h : s.txn <;>
    simp [State.addressPhase, State.pulse_eq, State.atStep, State.setTxn, State.setDirection, State.setCtl,
      State.busWrite, State.emit, h]

/-! ### Memory reads and the multiplexer -/

/-- MemRead finds a written cell and changes nothing, or records one fault and draws (R61, R200). -/
theorem State.memRead_spec (pl : Plane) (a : Nat) :
    (∃ cell v, resolveAddress s.cfg.oorPolicy (s.cfg.planeSize pl) a = some cell ∧ (s.plane pl).read cell = some v ∧
      s.memRead pl a = (v, s)) ∨
    (∃ cell, resolveAddress s.cfg.oorPolicy (s.cfg.planeSize pl) a = some cell ∧ (s.plane pl).read cell = none ∧
      s.memRead pl a = (s.recordFault (.uninitRead pl cell)).draw) ∨
    (resolveAddress s.cfg.oorPolicy (s.cfg.planeSize pl) a = none ∧
      s.memRead pl a = (s.recordFault (.outOfRangeAddress pl a)).draw) := by
  unfold State.memRead
  cases h : resolveAddress s.cfg.oorPolicy (s.cfg.planeSize pl) a with
  | none => exact .inr (.inr ⟨rfl, rfl⟩)
  | some cell =>
    cases hv : (s.plane pl).read cell with
    | none => exact .inr (.inl ⟨cell, rfl, hv, by simp only [hv]⟩)
    | some v => exact .inl ⟨cell, v, rfl, hv, by simp only [hv]⟩

/-- MemRead leaves the state as it was, or as recording one fault and one draw leave it. -/
theorem State.memRead_state (pl : Plane) (a : Nat) :
    (s.memRead pl a).2 = s ∨ ∃ f, (s.memRead pl a).2 = (s.recordFault f).draw.2 := by
  rcases s.memRead_spec pl a with ⟨_, _, _, _, h⟩ | ⟨_, _, _, h⟩ | ⟨_, h⟩ <;> rw [h]
  · exact .inl rfl
  · exact .inr ⟨_, rfl⟩
  · exact .inr ⟨_, rfl⟩

/-- So does the multiplexer (R157). -/
theorem State.mux_state (a : BitVec 14) (row : BitVec 3) :
    (s.mux a row).2 = s ∨ ∃ f, (s.mux a row).2 = (s.recordFault f).draw.2 := by
  unfold State.mux
  cases s.mode with
  | characterMode => exact s.memRead_state .char a.toNat
  | pixelMode => exact s.memRead_state .pix a.toNat

/-- A serve is one BUSWR, after at most one fault and its draw (R164, R200). -/
theorem State.serve_spec (a : BitVec 14) (row : BitVec 3) :
    ∃ b, s.serve a row = s.busWrite b ∨ ∃ f, s.serve a row = (s.recordFault f).draw.2.busWrite b := by
  refine ⟨(s.mux a row).1, ?_⟩
  rcases s.mux_state a row with h | ⟨f, h⟩
  · exact .inl (by rw [State.serve, h])
  · exact .inr ⟨f, by rw [State.serve, h]⟩

/-- An iteration only samples, or samples, serves once and records the key (R160, R162). -/
theorem State.respond_spec (raw : Word) :
    (s.changed raw = false ∧ s.respond raw = s.emit (.addrSample raw)) ∨
    (s.changed raw = true ∧ s.respond raw =
      ((((s.emit (.addrSample raw)).setLoop .serving).serve (snapshotAddr raw) (snapshotRow raw)).recordSample
        (changeKey s.cfg raw)).setLoop .idle) := by
  have hc : (s.emit (.addrSample raw)).changed raw = s.changed raw := rfl
  simp only [State.respond, hc]
  cases h : s.changed raw
  · exact .inl ⟨rfl, by simp⟩
  · exact .inr ⟨rfl, by simp⟩

/-! ### Register accesses and what they leave alone -/

/-- `t` differs from `s` at most in the lines, TXN, EVENTS (which only grow) and the inputs (no harness word taken). -/
structure ProtocolFrame (s t : State) : Prop where
  cfg : t.cfg = s.cfg
  mode : t.mode = s.mode
  cplane : t.cplane = s.cplane
  pplane : t.pplane = s.pplane
  prev : t.prev = s.prev
  prevValid : t.prevValid = s.prevValid
  lstate : t.lstate = s.lstate
  seq : t.seq = s.seq
  verifyResult : t.verifyResult = s.verifyResult
  faults : t.faults = s.faults
  ops : t.inputs.ops = s.inputs.ops
  events : ∃ evs, t.events = s.events ++ evs

theorem ProtocolFrame.refl : ProtocolFrame s s :=
  ⟨rfl, rfl, rfl, rfl, rfl, rfl, rfl, rfl, rfl, rfl, rfl, [], by simp⟩

theorem ProtocolFrame.trans {s t u : State} (h : ProtocolFrame s t) (k : ProtocolFrame t u) : ProtocolFrame s u := by
  obtain ⟨e1, he1⟩ := h.events
  obtain ⟨e2, he2⟩ := k.events
  exact ⟨k.cfg.trans h.cfg, k.mode.trans h.mode, k.cplane.trans h.cplane, k.pplane.trans h.pplane,
    k.prev.trans h.prev, k.prevValid.trans h.prevValid, k.lstate.trans h.lstate, k.seq.trans h.seq,
    k.verifyResult.trans h.verifyResult, k.faults.trans h.faults, k.ops.trans h.ops, e1 ++ e2, by
      rw [he2, he1, List.append_assoc]⟩

/-- writeRegister, whole: nine steps, fifteen events (R120). -/
theorem State.writeRegister_eq (idx : BitVec 5) (v : Byte) :
    s.writeRegister idx v = { s with
      dir := .output, dout := v, ncs := 1#1, rs := 1#1, rw := 0#1, e := 0#1, txn := none,
      events := s.events ++ [.dir .output, .ctl 0#1 s.rs 0#1, .ctl 0#1 0#1 0#1, .data (indexByte idx),
        .strobe 1#1, .delay s.cfg.tEH, .strobe 0#1, .delay s.cfg.tEL, .ctl 0#1 1#1 0#1, .data v,
        .strobe 1#1, .delay s.cfg.tEH, .strobe 0#1, .delay s.cfg.tEL, .ctl 1#1 1#1 0#1] } := by
  simp only [State.writeRegister, State.addressPhase_eq, State.pulse_eq, State.atStep, State.setTxn, State.setCtl,
    State.busWrite, State.emit, List.append_assoc, List.cons_append, List.nil_append]

/-- BusIn() depends on the inputs alone. -/
theorem State.takeBusIn_congr {t : State} (h : t.inputs = s.inputs) :
    t.takeBusIn = (s.takeBusIn.1, t.setInputs s.takeBusIn.2.inputs) := by
  simp only [State.takeBusIn, State.draw, h]
  split <;> rfl

/-- BUSRD while DIR is input (R110), in a state with the inputs of `s`. -/
theorem State.busRead_input {t : State} (hd : t.dir = .input) (hi : t.inputs = s.inputs) :
    t.busRead = (s.takeBusIn.1, (t.setInputs s.takeBusIn.2.inputs).emit (.busRead s.takeBusIn.1)) := by
  simp only [State.busRead, hd, State.takeBusIn_congr s hi]

/-- readRegister, whole: ten steps, sixteen events, the byte the environment puts on the lines (R125, R127). -/
theorem State.readRegister_eq (idx : BitVec 5) :
    s.readRegister idx = (s.takeBusIn.1, { s with
      dir := .input, dout := indexByte idx, ncs := 1#1, rs := 1#1, rw := 1#1, e := 0#1, txn := none,
      inputs := s.takeBusIn.2.inputs,
      events := s.events ++ [.dir .output, .ctl 0#1 s.rs 0#1, .ctl 0#1 0#1 0#1, .data (indexByte idx),
        .strobe 1#1, .delay s.cfg.tEH, .strobe 0#1, .delay s.cfg.tEL, .dir .input, .ctl 0#1 1#1 1#1,
        .strobe 1#1, .delay s.cfg.tEH, .strobe 0#1, .delay s.cfg.tEL, .busRead s.takeBusIn.1,
        .ctl 1#1 1#1 1#1] }) := by
  simp only [State.readRegister, State.addressPhase_eq, State.pulse_eq, State.atStep, State.setTxn, State.setCtl,
    State.setDirection, State.emit, List.append_assoc, List.cons_append, List.nil_append]
  rw [State.busRead_input s]
  case hd => rfl
  case hi => rfl
  simp only [State.setInputs, State.withTxnValue, State.setTxn, State.emit, List.append_assoc, List.cons_append,
    List.nil_append]

/-- writeRegister leaves all but the protocol's own state alone, and no access running. -/
theorem State.writeRegister_frame (idx : BitVec 5) (v : Byte) :
    ProtocolFrame s (s.writeRegister idx v) ∧ (s.writeRegister idx v).txn = none ∧
    (s.writeRegister idx v).e = 0#1 ∧ (s.writeRegister idx v).dir = .output ∧ (s.writeRegister idx v).ncs = 1#1 := by
  rw [State.writeRegister_eq]
  exact ⟨⟨rfl, rfl, rfl, rfl, rfl, rfl, rfl, rfl, rfl, rfl, rfl, _, rfl⟩, rfl, rfl, rfl, rfl⟩

/-- readRegister likewise; it ends with the bus an input (R126). -/
theorem State.readRegister_frame (idx : BitVec 5) :
    ProtocolFrame s (s.readRegister idx).2 ∧ (s.readRegister idx).2.txn = none ∧
    (s.readRegister idx).2.e = 0#1 ∧ (s.readRegister idx).2.dir = .input ∧ (s.readRegister idx).2.ncs = 1#1 := by
  obtain ⟨v, i, h, hi⟩ := s.takeBusIn_spec
  rw [State.readRegister_eq, h]
  exact ⟨⟨rfl, rfl, rfl, rfl, rfl, rfl, rfl, rfl, rfl, rfl, hi, _, rfl⟩, rfl, rfl, rfl, rfl⟩

/-- The writes of a profile, over any list of registers. -/
theorem State.writeRegisters_frame (prof : Profile) (rs : List (Fin 16)) :
    ProtocolFrame s (rs.foldl (fun s r => s.writeRegister (profileRegIndex r) prof[r]) s) := by
  induction rs generalizing s with
  | nil => exact ProtocolFrame.refl s
  | cons r rs ih =>
    rw [List.foldl_cons]
    exact ProtocolFrame.trans (s.writeRegister_frame (profileRegIndex r) prof[r]).1
      (ih (s.writeRegister (profileRegIndex r) prof[r]))

/-- applyProfile leaves all but the protocol's own state alone and ends as a write does (R176). -/
theorem State.applyProfile_frame (prof : Profile) :
    ProtocolFrame s (s.applyProfile prof) ∧ (s.applyProfile prof).txn = none ∧ (s.applyProfile prof).e = 0#1 ∧
    (s.applyProfile prof).dir = .output ∧ (s.applyProfile prof).ncs = 1#1 := by
  have hsplit : (List.finRange 16) = (List.finRange 16).dropLast ++ [15] := by decide
  have hlast : s.applyProfile prof =
      ((List.finRange 16).dropLast.foldl (fun s r => s.writeRegister (profileRegIndex r) prof[r]) s).writeRegister
        (profileRegIndex 15) prof[(15 : Fin 16)] := by
    rw [State.applyProfile, hsplit, List.foldl_append]
    simp
  refine ⟨s.writeRegisters_frame prof _, ?_⟩
  rw [hlast]
  exact (State.writeRegister_frame _ _ _).2

/-- The read-back leaves all but the protocol's own state alone, and ends with no access running. -/
theorem State.readBack_frame (prof : Profile) (rs : List (Fin 16)) (mask : BitVec 16)
    (ht : s.txn = none) (he : s.e = 0#1) (hn : s.ncs = 1#1) :
    ProtocolFrame s (s.readBack prof rs mask).2 ∧ (s.readBack prof rs mask).2.txn = none ∧
    (s.readBack prof rs mask).2.e = 0#1 ∧ (s.readBack prof rs mask).2.ncs = 1#1 := by
  induction rs generalizing s mask with
  | nil => exact ⟨ProtocolFrame.refl s, ht, he, hn⟩
  | cons r rs ih =>
    obtain ⟨h1, h2, h3, _, h5⟩ := s.readRegister_frame (profileRegIndex r)
    obtain ⟨k1, k2⟩ := ih (s.readRegister (profileRegIndex r)).2 (verifyMask mask r prof[r]
      (s.readRegister (profileRegIndex r)).1) h2 h3 h5
    exact ⟨h1.trans k1, k2⟩

/-! ### Configuration -/

/-- A configuration has no problem exactly when it is well-formed (R199). -/
theorem configProblem_eq_none (c : Config) : configProblem c = none ↔ c.WellFormed := by
  have hlen : c.profiles.isEmpty = true ↔ c.profiles.length = 0 := by simp
  unfold configProblem Config.WellFormed Config.nprof
  constructor
  · intro h
    split at h
    · cases h
    split at h
    · cases h
    split at h
    · cases h
    split at h
    · cases h
    split at h
    · cases h
    split at h
    · cases h
    split at h
    · cases h
    rename_i h1 h2 h3 h4 h5 _ h7
    exact ⟨by omega, by omega, not_not.mp h3, ⟨by omega, by omega⟩, ⟨by omega, by omega⟩, by omega⟩
  · rintro ⟨h1, h2, h3, h4, h5, h6⟩
    rw [if_neg (by omega), if_neg (by omega), if_neg (by simp [h3]), if_neg (by omega), if_neg (by omega),
      if_neg (by rw [hlen]; omega), if_neg (by omega)]

/-- A profile number names a profile exactly when it is below NPROF. -/
theorem profileAt_isSome (c : Config) (p : Nat) : (profileAt c p).isSome ↔ p < c.nprof := by
  simp [profileAt]

end Sys2Proof.Machine
end

