-- ==== Sys2Proof/Laws/Exec.lean ====
section
/-! SUPPORT. What the composite meanings answer, to be cited where a next state is taken apart. -/

namespace Sys2Proof.Machine

variable {s t : State}

/-- The next state of APPLYPROF comes from a profile the configuration has (R175). -/
theorem execApplyprof_next {p : BitVec 8} (h : execApplyprof p s = .next t) :
    ∃ prof, profileAt s.cfg p.toNat = some prof ∧ t = s.applyProfile prof := by
  unfold execApplyprof at h
  split at h
  · exact ⟨_, ‹_›, (Host.Outcome.next.inj h).symm⟩
  · exact absurd h (by simp)

/-- The next state of VERIFYPROF comes from a profile the configuration has (R180). -/
theorem execVerifyprof_next {p : BitVec 8} (h : execVerifyprof p s = .next t) :
    ∃ prof, profileAt s.cfg p.toNat = some prof ∧ t = s.verifyProfile prof := by
  unfold execVerifyprof at h
  split at h
  · exact ⟨_, ‹_›, (Host.Outcome.next.inj h).symm⟩
  · exact absurd h (by simp)

/-- VERIFYPROF changes only the protocol's own state and VERIFY_RESULT, and leaves no access running (R180). -/
theorem State.verifyProfile_frame (s : State) (prof : Profile) :
    ∃ (u : State) (mask : BitVec 16), s.verifyProfile prof = u.setVerify mask ∧ ProtocolFrame s u ∧ u.txn = none ∧
      u.e = 0#1 ∧ u.ncs = 1#1 := by
  obtain ⟨h1, h2, h3, _, h5⟩ := s.applyProfile_frame prof
  obtain ⟨k1, k2⟩ := State.readBack_frame _ prof (readableRegs s.cfg) 0#16 h2 h3 h5
  exact ⟨_, _, rfl, h1.trans k1, k2⟩

/-- Recording a fault and a draw touch only FAULTS and the draw counter, so a serve commutes with LSTATE. -/
theorem State.serve_setLoop (s : State) (l : LoopState) (a : BitVec 14) (row : BitVec 3) :
    (s.setLoop l).serve a row = (s.serve a row).setLoop l := by
  have hr : ∀ f, (s.setLoop l).recordFault f = (s.recordFault f).setLoop l := by
    intro f
    unfold State.recordFault
    by_cases hf : f ∈ s.faults
    · rw [if_pos hf, if_pos (show f ∈ (s.setLoop l).faults from hf)]
    · rw [if_neg hf, if_neg (show f ∉ (s.setLoop l).faults from hf)]; rfl
  have hm : ∀ pl n, (s.setLoop l).memRead pl n = ((s.memRead pl n).1, (s.memRead pl n).2.setLoop l) := by
    intro pl n
    have hp : (s.setLoop l).plane pl = s.plane pl := by cases pl <;> rfl
    simp only [State.memRead, State.setLoop_cfg, hp]
    split
    · rw [hr]; rfl
    · split
      · rfl
      · rw [hr]; rfl
  simp only [State.serve, State.mux, State.setLoop_mode, State.setLoop_cfg, hm]
  cases s.mode <;> rfl

/-- What a serve leaves alone: everything but DOUT, FAULTS, EVENTS and the draw counter (R164, R198). -/
theorem State.serve_frame (s : State) (a : BitVec 14) (row : BitVec 3) :
    ∃ (b : Byte) (fs : List Fault) (n : Nat),
      (fs = s.faults ∨ ∃ f, f ∉ s.faults ∧ fs = s.faults ++ [f]) ∧
      s.serve a row = { s with
        dout := b, faults := fs, events := s.events ++ [.data b], inputs := { s.inputs with draws := n } } := by
  obtain ⟨b, h | ⟨f, h⟩⟩ := s.serve_spec a row <;> rw [h]
  · exact ⟨b, s.faults, s.inputs.draws, .inl rfl, rfl⟩
  · by_cases hf : f ∈ s.faults
    · refine ⟨b, s.faults, s.inputs.draws + 1, .inl rfl, ?_⟩
      rw [State.recordFault, if_pos hf]; rfl
    · refine ⟨b, s.faults ++ [f], s.inputs.draws + 1, .inr ⟨f, hf, rfl⟩, ?_⟩
      rw [State.recordFault, if_neg hf]; rfl

/-- The transceiver's operations are unconditional (R105, R112): each completes, with exactly one event and no fault. -/
theorem transceiver_unconditional (s : State) {i : Instr}
    (h : (∃ d, i = .setdir d) ∨ (∃ v, i = .buswr v) ∨ i = .busrd) :
    ∃ t ev, exec i s = .next t ∧ t.events = s.events ++ [ev] ∧ t.faults = s.faults := by
  rcases h with ⟨d, rfl⟩ | ⟨v, rfl⟩ | rfl
  · exact ⟨_, _, rfl, rfl, rfl⟩
  · exact ⟨_, _, rfl, rfl, rfl⟩
  · obtain ⟨v, i, hb, _⟩ := s.busRead_spec
    exact ⟨_, .busRead v, rfl, by rw [hb]; rfl, by rw [hb]; rfl⟩

end Sys2Proof.Machine
end

