-- ==== Sys2Proof/Laws/PerInstr.lean ====
section
/-! SUPPORT. Per-instruction lemmas. Family OpField: bits [31:28] of an operation's word are its operation number
(30_encoding R90, R92), so no two operations share a word. -/

namespace Sys2Proof.Laws

/-- The operation number of R92. -/
def OpField.number : Instr → BitVec 4
  | .setdir _ => 0x1#4
  | .buswr _ => 0x2#4
  | .busrd => 0x3#4
  | .setctl _ _ _ => 0x4#4
  | .pulse => 0x5#4
  | .wait _ => 0x6#4
  | .wrreg _ _ => 0x7#4
  | .rdreg _ => 0x8#4
  | .setmode _ => 0x9#4
  | .resetpat => 0xA#4
  | .fillplane _ => 0xB#4
  | .iter => 0xC#4
  | .applyprof _ => 0xD#4
  | .verifyprof _ => 0xE#4
  | .serve _ _ => 0xF#4

/-- Bits [31:28] of the word are the operation number. -/
def OpField.Statement (i : Instr) : Prop := (encode i).extractLsb' 28 4 = OpField.number i

/-- A word whose bits 31 to 28 are those of `k` has the operation number `k`. -/
theorem OpField.of_bits {w : Word} {k : BitVec 4} (h : ∀ i < 4, w.getLsbD (28 + i) = k.getLsbD i) :
    w.extractLsb' 28 4 = k := by
  apply BitVec.eq_of_getLsbD_eq
  intro i hi
  simpa [BitVec.getLsbD_extractLsb', hi] using h i hi

theorem OpField.setdir (d : Direction) : OpField.Statement (.setdir d) := by
  cases d <;> (unfold OpField.Statement; decide)

theorem OpField.buswr (v : Byte) : OpField.Statement (.buswr v) := by
  refine OpField.of_bits fun i hi => ?_
  simp only [encode, BitVec.getLsbD_append]
  interval_cases i <;> simp [OpField.number]

theorem OpField.busrd : OpField.Statement (.busrd) := by
  unfold OpField.Statement; decide

theorem OpField.setctl (ncs rs rw : Bit) : OpField.Statement (.setctl ncs rs rw) := by
  refine OpField.of_bits fun i hi => ?_
  simp only [encode, BitVec.getLsbD_append]
  interval_cases i <;> simp [OpField.number]

theorem OpField.pulse : OpField.Statement (.pulse) := by
  unfold OpField.Statement; decide

theorem OpField.wait (n : BitVec 16) : OpField.Statement (.wait n) := by
  refine OpField.of_bits fun i hi => ?_
  simp only [encode, BitVec.getLsbD_append]
  interval_cases i <;> simp [OpField.number]

theorem OpField.wrreg (idx : BitVec 5) (v : Byte) : OpField.Statement (.wrreg idx v) := by
  refine OpField.of_bits fun i hi => ?_
  simp only [encode, BitVec.getLsbD_append]
  interval_cases i <;> simp [OpField.number]

theorem OpField.rdreg (idx : BitVec 5) : OpField.Statement (.rdreg idx) := by
  refine OpField.of_bits fun i hi => ?_
  simp only [encode, BitVec.getLsbD_append]
  interval_cases i <;> simp [OpField.number]

theorem OpField.setmode (m : VideoMode) : OpField.Statement (.setmode m) := by
  cases m <;> (unfold OpField.Statement; decide)

theorem OpField.resetpat : OpField.Statement (.resetpat) := by
  unfold OpField.Statement; decide

theorem OpField.fillplane (pl : Plane) : OpField.Statement (.fillplane pl) := by
  cases pl <;> (unfold OpField.Statement; decide)

theorem OpField.iter : OpField.Statement (.iter) := by
  unfold OpField.Statement; decide

theorem OpField.applyprof (p : BitVec 8) : OpField.Statement (.applyprof p) := by
  refine OpField.of_bits fun i hi => ?_
  simp only [encode, BitVec.getLsbD_append]
  interval_cases i <;> simp [OpField.number]

theorem OpField.verifyprof (p : BitVec 8) : OpField.Statement (.verifyprof p) := by
  refine OpField.of_bits fun i hi => ?_
  simp only [encode, BitVec.getLsbD_append]
  interval_cases i <;> simp [OpField.number]

theorem OpField.serve (a : BitVec 14) (row : BitVec 3) : OpField.Statement (.serve a row) := by
  refine OpField.of_bits fun i hi => ?_
  simp only [encode, BitVec.getLsbD_append]
  interval_cases i <;> simp [OpField.number]

end Sys2Proof.Laws
end

