-- ==== Sys2Proof/Laws/Step.lean ====
section
/-! SUPPORT. Everything a step that answers a next state can have done, said once. -/

namespace Sys2Proof.Machine

/-- The ways a step of the block reaches `t` from `s`: an operation word, Startup, or one pass of the loop, the pass's
own inputs taken off first. -/
inductive StepsTo (s : State) : State → Prop where
  | operation (w : Word) (rest : List Word) (i : Instr) (t : State) (hw : s.inputs.ops = w :: rest)
      (hd : decode s.cfg w = .ok i) (hx : exec i (s.setInputs { s.inputs with ops := rest }) = .next t) : StepsTo s t
  | startup (prof : Profile) (u : State) (ho : s.inputs.ops = []) (hq : s.seq = .startup)
      (hp : profileAt s.cfg s.cfg.initialProfile = some prof) (hu : s.applyProfile prof = u) :
      StepsTo s ((u.setDirection .output).setSeq .loop)
  | idle (i : Inputs) (ho : s.inputs.ops = []) (hq : s.seq = .loop) (hi : s.inputs.PassTaken i) :
      StepsTo s (s.setInputs i)
  | loopOperation (i : Inputs) (o : Instr) (t : State) (ho : s.inputs.ops = []) (hq : s.seq = .loop)
      (hi : s.inputs.PassTaken i) (hc : (o = .iter ∧ s.takePass.1 = .iter) ∨ (∃ m, o = .setmode m) ∨ o = .resetpat)
      (hx : exec o (s.setInputs i) = .next t) : StepsTo s t
  | fill (i : Inputs) (pl : Plane) (contents : List Byte) (ho : s.inputs.ops = []) (hq : s.seq = .loop)
      (hi : s.inputs.PassTaken i) : StepsTo s ((s.setInputs i).fillWith pl contents)
  | profile (i : Inputs) (o : Instr) (u : State) (ho : s.inputs.ops = []) (hq : s.seq = .loop)
      (hi : s.inputs.PassTaken i) (hc : (∃ p, o = .applyprof p) ∨ ∃ p, o = .verifyprof p)
      (hx : exec o (s.setInputs i) = .next u) : StepsTo s (u.setDirection .output)

/-- SETDIR after a command reaches a next state from a next state only. -/
theorem thenDriveBus_next {r : Result} {t : State} (h : thenDriveBus r = .next t) :
    ∃ u, r = .next u ∧ t = u.setDirection .output := by
  cases r with
  | next u => cases h; exact ⟨u, rfl, rfl⟩
  | fault _ => cases h
  | refused _ => cases h

/-- One pass of the loop. -/
theorem loopPass_cases {s t : State} (ho : s.inputs.ops = []) (hq : s.seq = .loop) (h : loopPass s = .next t) :
    StepsTo s t := by
  obtain ⟨p, i, hp, hi⟩ := s.takePass_spec
  have polled : ∀ token, poll (s.setInputs i) token = .next t → StepsTo s t := by
    intro token h
    cases token with
    | none => cases h; exact .idle i ho hq hi
    | some c =>
      cases c with
      | setMode m => exact .loopOperation i (.setmode m) t ho hq hi (.inr (.inl ⟨m, rfl⟩)) h
      | resetPattern => exact .loopOperation i .resetpat t ho hq hi (.inr (.inr rfl)) h
      | fill pl c => cases h; exact .fill i pl c ho hq hi
      | applyProfile p =>
        obtain ⟨u, hu, rfl⟩ := thenDriveBus_next h
        exact .profile i (.applyprof p) u ho hq hi (.inl ⟨p, rfl⟩) hu
      | verifyProfile p =>
        obtain ⟨u, hu, rfl⟩ := thenDriveBus_next h
        exact .profile i (.verifyprof p) u ho hq hi (.inr ⟨p, rfl⟩) hu
  rw [loopPass, hp] at h
  cases p with
  | iter => exact .loopOperation i .iter t ho hq hi (.inl ⟨rfl, by rw [hp]⟩) h
  | poll token => exact polled token h
  | character b => exact polled _ h

/-- A step that answers a next state has done one of the things `StepsTo` lists, under a well-formed configuration. -/
theorem step_cases {s t : State} (h : step s = .next t) : s.cfg.WellFormed ∧ StepsTo s t := by
  unfold step at h
  cases hc : configProblem s.cfg with
  | some p => simp [hc] at h
  | none =>
    refine ⟨(configProblem_eq_none _).mp hc, ?_⟩
    simp only [hc] at h
    cases hw : s.inputs.ops with
    | cons w rest =>
      simp only [s.takeOp_of_cons hw] at h
      split at h
      · next i hd => exact .operation w rest i t hw hd h
      · cases h
    | nil =>
      simp only [s.takeOp_of_nil hw, runSequencer] at h
      split at h
      · next hq =>
        unfold startUp at h
        split at h
        · next prof hp => rw [← Host.Outcome.next.inj h]; exact .startup prof _ hw hq hp rfl
        · cases h
      · next hq => exact loopPass_cases hw hq h

end Sys2Proof.Machine
end

