-- ==== Sys2Proof/Tests/Slice0.lean ====
section
/-! SUPPORT. The model's own tests: ill-formed terms, decoding against the spec's words, one-step vectors of
95_test_vectors, and a witness for the hypotheses of every statement. Each expected value is the spec's. -/

namespace Sys2Proof.Tests
open Sys2Proof Sys2Proof.Machine

/-! ### The test configuration TC and the states the tests start from (95 section 0) -/

/-- TROM[i] = 0xFF - (i mod 256). -/
def trom : Vector Byte 2048 :=
  ⟨((List.range 2048).map fun i => BitVec.ofNat 8 (0xFF - i % 256)).toArray, by simp⟩

/-- PROFILES[0] of TC. -/
def text80 : Profile :=
  #v[0x71#8, 0x50#8, 0x5A#8, 0x0A#8, 0x1F#8, 0x06#8, 0x19#8, 0x1C#8, 0x02#8, 0x07#8, 0x06#8, 0x07#8, 0x00#8, 0x00#8,
    0x00#8, 0x00#8]

/-- PROFILES[1] of TC. -/
def text40 : Profile :=
  #v[0x38#8, 0x28#8, 0x2D#8, 0x0A#8, 0x1F#8, 0x06#8, 0x19#8, 0x1C#8, 0x02#8, 0x07#8, 0x06#8, 0x07#8, 0x00#8, 0x00#8,
    0x00#8, 0x00#8]

/-- TC with RESET_MODE CharacterMode. -/
def tc : Config where
  glyphRom := trom
  profiles := [text80, text40]
  initialProfile := 0
  resetMode := .characterMode
  charPlaneSize := 2000
  pixelPlaneSize := 8000
  cmpMask := 0x0001FFFF#32
  oorPolicy := .fault
  readable := [14#5, 15#5, 16#5, 17#5]
  tEH := 1
  tEL := 1
  cmdTable := [(0x52#8, .resetPattern), (0x50#8, .setMode .pixelMode)]

/-- S_boot under a configuration with an empty history, so that a test reads only what its own step appends. -/
def bootWith (c : Config) : State where
  cfg := c
  dir := .output
  dout := 0x00#8
  ncs := 1#1
  rs := 1#1
  rw := 0#1
  e := 0#1
  mode := c.resetMode
  cplane := []
  pplane := []
  prev := 0#32
  prevValid := false
  lstate := .idle
  txn := none
  seq := .loop
  verifyResult := none
  faults := []
  events := []
  inputs := Inputs.none 1

/-- S_boot under TC. -/
def boot : State := bootWith tc

/-- S_boot with a few cells of the reset pattern, PREV valid and some inputs given. -/
def served : State :=
  { boot with
    cplane := [(0, 0x20#8), (1, 0x21#8), (300, 0x2C#8), (1999, 0x6F#8)]
    pplane := [(0, 0x00#8), (1, 0x01#8), (300, 0x2C#8), (7999, 0x3F#8)]
    prev := 0x00000001#32
    prevValid := true }

/-- TC with planes of `n` and `m` cells. -/
def sized (n m : Nat) : Config := { tc with charPlaneSize := n, pixelPlaneSize := m }

/-- `s` with inputs given. -/
def withIn (s : State) (samples : List Word) (busIns : List Byte) (fills : List (List Byte)) : State :=
  { s with inputs := { s.inputs with samples := samples, busIns := busIns, fills := fills } }

/-- `s` with a schedule given. -/
def withPasses (s : State) (passes : List Pass) : State := { s with inputs := { s.inputs with passes := passes } }

/-- `s` with operation words queued. -/
def withOps (s : State) (ops : List Word) : State := { s with inputs := { s.inputs with ops := ops } }

/-- What `f` reads in the next state, if there is one. -/
def after (o : Result) (f : State → α) : Option α := (nextOf o).map f

theorem after_eq {o : Result} {f : State → α} {v : α} (h : after o f = some v) : ∃ t, o = .next t ∧ f t = v := by
  cases o with
  | next t => exact ⟨t, rfl, Option.some.inj h⟩
  | fault _ => cases h
  | refused _ => cases h

theorem next_of {o : Result} (h : (nextOf o).isSome = true) : ∃ t, o = .next t := by
  cases o with
  | next t => exact ⟨t, rfl⟩
  | fault _ => cases h
  | refused _ => cases h

/-! ### Well-formedness: one ill-formed term for each check -/

/-- V2: p = 2 is not below NPROF = 2. -/
theorem test_wellFormed_applyprof :
    (Instr.applyprof 2#8).wellFormed tc = false ∧ (Instr.applyprof 1#8).wellFormed tc = true := by decide

theorem test_wellFormed_verifyprof :
    (Instr.verifyprof 255#8).wellFormed tc = false ∧ (Instr.verifyprof 0#8).wellFormed tc = true := by decide

theorem test_config_tc : tc.WellFormed := by decide

/-- V10. -/
theorem test_config_tEH : ¬ ({ tc with tEH := 0 } : Config).WellFormed := by decide

theorem test_config_tEL : ¬ ({ tc with tEL := 0 } : Config).WellFormed := by decide

/-- V34. -/
theorem test_config_mask :
    ¬ ({ tc with cmpMask := 0x0000FFFF#32 } : Config).WellFormed ∧
    ¬ ({ tc with cmpMask := 0x0001FFFE#32 } : Config).WellFormed ∧
    ({ tc with cmpMask := 0x0003FFFF#32 } : Config).WellFormed ∧
    ({ tc with cmpMask := 0xFFFFFFFF#32 } : Config).WellFormed := by decide

/-- R199, V24: sizes 1 and 16384 are accepted. -/
theorem test_config_charPlaneSize :
    ¬ (sized 0 8000).WellFormed ∧ ¬ (sized 16385 8000).WellFormed ∧ (sized 1 8000).WellFormed ∧
    (sized 16384 8000).WellFormed := by decide

theorem test_config_pixelPlaneSize :
    ¬ (sized 2000 0).WellFormed ∧ ¬ (sized 2000 16385).WellFormed ∧ (sized 2000 1).WellFormed ∧
    (sized 2000 16384).WellFormed := by decide

theorem test_config_profiles :
    ¬ ({ tc with profiles := [] } : Config).WellFormed ∧ ¬ ({ tc with initialProfile := 2 } : Config).WellFormed ∧
    ({ tc with initialProfile := 1 } : Config).WellFormed := by decide

/-- The check `step` makes names the first problem. -/
theorem test_configProblem :
    configProblem tc = none ∧ configProblem { tc with tEH := 0 } = some .strobeHighTooShort ∧
    configProblem { tc with tEL := 0 } = some .strobeLowTooShort ∧
    configProblem { tc with cmpMask := 0x0000FFFF#32 } = some .maskTooNarrow ∧
    configProblem (sized 0 1) = some .charPlaneSize ∧ configProblem (sized 1 16385) = some .pixelPlaneSize ∧
    configProblem { tc with profiles := [] } = some .noProfile ∧
    configProblem { tc with initialProfile := 2 } = some .noInitialProfile := by decide

/-! ### Decoding: the words of V1 and V2, written out from R91 and R92 -/

theorem test_decode_transceiver :
    decode tc 0x10000000#32 = .ok (.setdir .input) ∧ decode tc 0x10000001#32 = .ok (.setdir .output) ∧
    decode tc 0x20000041#32 = .ok (.buswr 0x41#8) ∧ decode tc 0x30000000#32 = .ok .busrd := by decide

theorem test_decode_lines :
    decode tc 0x40000000#32 = .ok (.setctl 0#1 0#1 0#1) ∧ decode tc 0x40000006#32 = .ok (.setctl 1#1 1#1 0#1) ∧
    decode tc 0x40000007#32 = .ok (.setctl 1#1 1#1 1#1) ∧ decode tc 0x40000004#32 = .ok (.setctl 1#1 0#1 0#1) ∧
    decode tc 0x50000000#32 = .ok .pulse ∧ decode tc 0x60000000#32 = .ok (.wait 0#16) ∧
    decode tc 0x6000FFFF#32 = .ok (.wait 0xFFFF#16) := by decide

theorem test_decode_registers :
    decode tc 0x70000150#32 = .ok (.wrreg 1#5 0x50#8) ∧ decode tc 0x70001FFF#32 = .ok (.wrreg 31#5 0xFF#8) ∧
    decode tc 0x80000E00#32 = .ok (.rdreg 14#5) ∧ decode tc 0x80001F00#32 = .ok (.rdreg 31#5) := by decide

theorem test_decode_buffers :
    decode tc 0x90000000#32 = .ok (.setmode .characterMode) ∧ decode tc 0x90000001#32 = .ok (.setmode .pixelMode) ∧
    decode tc 0xA0000000#32 = .ok .resetpat ∧ decode tc 0xB0000000#32 = .ok (.fillplane .char) ∧
    decode tc 0xB0000001#32 = .ok (.fillplane .pix) := by decide

theorem test_decode_loop :
    decode tc 0xC0000000#32 = .ok .iter ∧ decode tc 0xF0000000#32 = .ok (.serve 0#14 0#3) ∧
    decode tc 0xF000C001#32 = .ok (.serve 1#14 3#3) ∧ decode tc 0xF001FFFF#32 = .ok (.serve 0x3FFF#14 7#3) := by
  decide

theorem test_decode_profiles :
    decode tc 0xD0000000#32 = .ok (.applyprof 0#8) ∧ decode tc 0xD0000001#32 = .ok (.applyprof 1#8) ∧
    decode tc 0xE0000000#32 = .ok (.verifyprof 0#8) := by decide

/-- V2. -/
theorem test_decode_reserved :
    decode tc 0x00000000#32 = .error .opZero ∧ decode tc 0x0FFFFFFF#32 = .error .opZero ∧
    decode tc 0xD0000002#32 = .error .noSuchProfile ∧ decode tc 0xE00000FF#32 = .error .noSuchProfile ∧
    ([0x10000002#32, 0x20000100#32, 0x30000001#32, 0x40000008#32, 0x50000001#32, 0x60010000#32, 0x70002000#32,
      0x80000E01#32, 0x90000002#32, 0xA0000001#32, 0xB0000002#32, 0xC0000001#32, 0xD0000100#32, 0xE0000100#32,
      0xF0020000#32].map (decode tc)).all (· == .error .strayBit) = true := by decide +kernel

/-- P1 and P4 give these encodings. -/
theorem test_encode :
    encode .resetpat = 0xA0000000#32 ∧ encode (.wrreg 14#5 0x03#8) = 0x70000E03#32 ∧
    encode (.fillplane .pix) = 0xB0000001#32 ∧ encode (.serve 1#14 3#3) = 0xF000C001#32 := by decide

/-- A table word that is wider than the operation word is refused. -/
theorem test_decodeTableWord :
    decodeTableWord 32 0xF000C001 = some (.serve 1#14 3#3) ∧ decodeTableWord 32 0x10000002 = none ∧
    decodeTableWord 40 0x1F000C001 = none := by decide

/-! ### One step of each operation (95 Part 2) -/

/-- V4, V6: DOUT stands, and then shows on the lines. -/
theorem test_setdir :
    after (exec (.setdir .output) { boot with dir := .input, dout := 0x5A#8 })
      (fun t => (t.dir, t.drivenByte, t.events)) = some (.output, some 0x5A#8, [.dir .output]) := by decide +kernel

/-- V5. -/
theorem test_buswr :
    after (exec (.buswr 0x41#8) boot) (fun t => (t.drivenByte, t.events)) = some (some 0x41#8, [.data 0x41#8]) := by
  decide +kernel

/-- V6. -/
theorem test_buswr_input :
    after (exec (.buswr 0x5A#8) { boot with dir := .input }) (fun t => (t.dout, t.drivenByte)) =
      some (0x5A#8, none) := by decide +kernel

/-- V7. -/
theorem test_busrd :
    after (exec .busrd (withIn { boot with dir := .input } [] [0x07#8, 0x08#8] []))
      (fun t => (t.events, t.inputs.busIns)) = some ([.busRead 0x07#8], [0x08#8]) := by decide +kernel

/-- V8: no fault, and the environment's byte is not taken. -/
theorem test_busrd_output :
    after (exec .busrd (withIn boot [] [0x07#8] [])) (fun t => (t.faults, t.events.length, t.inputs.busIns)) =
      some ([], 1, [0x07#8]) := by decide +kernel

/-- V12. -/
theorem test_setctl :
    after (exec (.setctl 0#1 0#1 0#1) { boot with rs := 0#1, rw := 1#1 })
      (fun t => (t.ncs, t.rs, t.rw, t.e, t.events)) = some (0#1, 0#1, 0#1, 0#1, [.ctl 0#1 0#1 0#1]) := by
  decide +kernel

/-- V10. -/
theorem test_pulse :
    after (exec .pulse (bootWith { tc with tEH := 2, tEL := 3 })) (fun t => (t.e, t.events)) =
      some (0#1, [.strobe 1#1, .delay 2, .strobe 0#1, .delay 3]) := by decide +kernel

/-- V11. -/
theorem test_wait :
    after (exec (.wait 0xFFFF#16) boot) (fun t => t.events) = some [.delay 65535] ∧
    after (exec (.wait 0#16) boot) (fun t => t.events) = some [.delay 0] := by decide +kernel

/-- V14. -/
theorem test_wrreg :
    after (exec (.wrreg 1#5 0x50#8) boot) (fun t => t.events) = some
      [.dir .output, .ctl 0#1 1#1 0#1, .ctl 0#1 0#1 0#1, .data 0x01#8, .strobe 1#1, .delay 1, .strobe 0#1, .delay 1,
       .ctl 0#1 1#1 0#1, .data 0x50#8, .strobe 1#1, .delay 1, .strobe 0#1, .delay 1, .ctl 1#1 1#1 0#1] := by
  decide +kernel

/-- V15: the reference controller takes the index and changes no register. -/
theorem test_wrreg_31 :
    after (exec (.wrreg 31#5 0xFF#8) boot) (fun t => (t.dout, Controller.unknown.run boot.lines t.events)) =
      some (0xFF#8, ⟨some 31#5, Vector.replicate 18 none⟩) := by decide +kernel

/-- V17. -/
theorem test_rdreg :
    after (exec (.rdreg 14#5) (withIn boot [] [0x03#8] [])) (fun t => t.events) = some
      [.dir .output, .ctl 0#1 1#1 0#1, .ctl 0#1 0#1 0#1, .data 0x0E#8, .strobe 1#1, .delay 1, .strobe 0#1, .delay 1,
       .dir .input, .ctl 0#1 1#1 1#1, .strobe 1#1, .delay 1, .strobe 0#1, .delay 1, .busRead 0x03#8,
       .ctl 1#1 1#1 1#1] := by decide +kernel

/-- V17's end state; V18's shape for a register that is not readable. -/
theorem test_rdreg_end :
    after (exec (.rdreg 14#5) (withIn boot [] [0x03#8] []))
      (fun t => (t.dir, t.dout, t.ncs, t.rs, t.rw, t.e)) = some (.input, 0x0E#8, 1#1, 1#1, 1#1, 0#1) ∧
    after (exec (.rdreg 20#5) boot) (fun t => (t.events.length, t.faults)) = some (16, []) := by decide +kernel

/-- V21. -/
theorem test_setmode :
    after (exec (.setmode .pixelMode) boot) (fun t => (t.mode, t.events)) = some (.pixelMode, []) := by decide +kernel

/-- V24, V22, V23 at small sizes. -/
theorem test_resetpat :
    after (exec .resetpat (bootWith (sized 98 258))) (fun t =>
        (t.cplane.read 0, t.cplane.read 95, t.cplane.read 96, t.cplane.read 98)) =
      some (some 0x20#8, some 0x7F#8, some 0x20#8, none) ∧
    after (exec .resetpat (bootWith (sized 98 258))) (fun t =>
        (t.pplane.read 255, t.pplane.read 256, t.pplane.read 257, t.events)) =
      some (some 0xFF#8, some 0x00#8, some 0x01#8, []) := by decide +kernel

/-- V24. -/
theorem test_resetpat_one :
    after (exec .resetpat (bootWith (sized 1 1))) (fun t => (t.cplane, t.pplane)) =
      some ([(0, 0x20#8)], [(0, 0x00#8)]) := by decide +kernel

/-- V25 at small sizes. -/
theorem test_fillplane :
    after (exec (.fillplane .pix) (withIn { bootWith (sized 2 3) with cplane := [(0, 0x20#8)] } [] []
        [[0xAA#8, 0xAA#8, 0xAA#8]])) (fun t => (t.cplane, t.pplane)) =
      some ([(0, 0x20#8)], [(0, 0xAA#8), (1, 0xAA#8), (2, 0xAA#8)]) := by decide +kernel

theorem test_fillplane_char :
    after (exec (.fillplane .char) (withIn { bootWith (sized 2 3) with cplane := [(0, 0x20#8)] } [] []
        [[0xFF#8, 0xFF#8]])) (fun t => (t.cplane, t.pplane)) = some ([(0, 0xFF#8), (1, 0xFF#8)], []) := by
  decide +kernel

/-- P1 step 6. -/
theorem test_iter_serves :
    after (exec .iter (withIn served [0x0000C001#32] [] [])) (fun t => (t.events, t.prev, t.prevValid, t.lstate)) =
      some ([.addrSample 0x0000C001#32, .data 0xF4#8], 0x0000C001#32, true, .idle) := by decide +kernel

/-- V33, row 2: bit 17 is masked, and not under a full mask. -/
theorem test_iter_same_key :
    after (exec .iter (withIn served [0x00020001#32] [] [])) (fun t => (t.events, t.prev)) =
      some ([.addrSample 0x00020001#32], 0x00000001#32) ∧
    after (exec .iter (withIn { served with cfg := { tc with cmpMask := 0xFFFFFFFF#32 } } [0x00020001#32] [] []))
      (fun t => (t.events, t.prev)) = some ([.addrSample 0x00020001#32, .data 0xF7#8], 0x00020001#32) := by
  decide +kernel

/-- V39. -/
theorem test_applyprof :
    after (exec (.applyprof 1#8) boot) (fun t => (t.events.length, (t.events.drop 9).head?, t.dout)) =
      some (240, some (.data 0x38#8), 0x00#8) ∧
    after (exec (.applyprof 1#8) boot) (fun t => (Controller.unknown.run boot.lines t.events).ar) =
      some (some 15#5) := by decide +kernel

/-- V2, as an operation: p = 2 names no profile. -/
theorem test_applyprof_unknown : exec (.applyprof 2#8) boot = .refused (.noSuchProfile 2#8) := by rfl

/-- V40, V41. -/
theorem test_verifyprof :
    after (exec (.verifyprof 0#8) (withIn boot [] [0x00#8, 0x00#8] []))
      (fun t => (t.events.length, t.verifyResult, t.dir, t.dout)) = some (272, some 0#16, .input, 0x0F#8) ∧
    after (exec (.verifyprof 0#8) (withIn boot [] [0x3F#8, 0x00#8] []))
      (fun t => (t.verifyResult, t.faults)) = some (some 0x4000#16, []) := by decide +kernel

/-- V42. -/
theorem test_verifyprof_nothing_readable :
    after (exec (.verifyprof 0#8) (bootWith { tc with readable := [16#5, 17#5] }))
      (fun t => (t.events.length, t.verifyResult, t.dir)) = some (240, some 0#16, .output) := by decide +kernel

/-- V26, V28, V31. -/
theorem test_serve :
    after (exec (.serve 1#14 3#3) { served with dir := .input }) (fun t => (t.dout, t.drivenByte, t.events)) =
      some (0xF4#8, none, [.data 0xF4#8]) ∧
    after (exec (.serve 1999#14 0#3) served) (fun t => t.dout) = some 0x87#8 ∧
    after (exec (.serve 7999#14 6#3) { served with mode := .pixelMode }) (fun t => (t.dout, t.faults)) =
      some (0x3F#8, []) := by decide +kernel

/-- V29, V30, V36: the policies at the first address beyond the plane, and the range check before the unwritten cell. -/
theorem test_serve_policies :
    after (exec (.serve 2000#14 1#3) served) (fun t => t.faults) = some [.outOfRangeAddress .char 2000] ∧
    after (exec (.serve 2000#14 1#3) { served with cfg := { tc with oorPolicy := .wrap } })
      (fun t => (t.dout, t.faults)) = some (0xFE#8, []) ∧
    after (exec (.serve 0x3FFF#14 7#3) { served with cfg := { tc with oorPolicy := .clamp } })
      (fun t => (t.dout, t.faults)) = some (0x80#8, []) ∧
    after (exec (.serve 9000#14 0#3) { boot with mode := .pixelMode }) (fun t => t.faults) =
      some [.outOfRangeAddress .pix 9000] := by decide +kernel

/-! ### The sequencer -/

/-- V43, V44: 241 events from reset, the last two `Ctl(1,1,0)` and `Dir(1)`. -/
theorem test_startup :
    after (step (State.resetFrom tc (Inputs.none 0))) (fun t => (t.events.length, t.events.drop 239, t.seq, t.dout)) =
      some (241, [.ctl 1#1 1#1 0#1, .dir .output], .loop, 0x00#8) := by decide +kernel

/-- V45: VerifyProfile(0) and the SETDIR after it. -/
theorem test_command_verify :
    after (step (withPasses (withIn boot [] [0x00#8, 0x00#8] []) [.poll (some (.verifyProfile 0#8))]))
      (fun t => (t.events.length, t.verifyResult, t.drivenByte)) = some (273, some 0#16, some 0x0F#8) := by
  decide +kernel

/-- V45: SetMode(1) emits nothing; no token changes nothing. -/
theorem test_command_setmode :
    after (step (withPasses boot [.poll (some (.setMode .pixelMode))])) (fun t => (t.mode, t.events)) =
      some (.pixelMode, []) ∧
    after (step (withPasses boot [.poll none])) (fun t => (t.mode, t.dout, t.events, t.inputs)) =
      some (.characterMode, 0x00#8, [], Inputs.none 1) := by decide +kernel

/-- R95: a queued reserved word is refused; R199: so is an ill-formed configuration, whatever is queued. -/
theorem test_step_refusals :
    step (withOps boot [0x10000002#32]) = .refused (.reservedWord .strayBit 0x10000002#32) ∧
    step (withOps (bootWith (sized 0 1)) [0x50000000#32]) = .refused (.illFormedConfig .charPlaneSize) := ⟨rfl, rfl⟩

/-- `withFetchWord` places the word the next step runs, and the rest of the program stays behind it. -/
theorem test_withFetchWord :
    after (step ((withOps boot [0x50000000#32]).withFetchWord 32 0x20000041)) (fun t => (t.events, t.inputs.ops)) =
      some ([.data 0x41#8], [0x50000000#32]) := by decide +kernel

/-! ### Witnesses: a state and operands that meet a statement's hypotheses, for each clause -/

theorem test_witness_DecodeOfEncodeIsTheInstruction :
    (Instr.applyprof 1#8).wellFormed tc = true ∧ (Instr.serve 0x3FFF#14 7#3).wellFormed tc = true := by decide

theorem test_witness_EncodeOfDecodeIsTheWord :
    decodeWord 0xF001FFFF#32 = .ok (.serve 0x3FFF#14 7#3) ∧ decodeWord 0x40000006#32 = .ok (.setctl 1#1 1#1 0#1) := by
  decide

theorem test_witness_DecoderAcceptsExactlyTheTableRows :
    decodeWord 0x6000FFFF#32 = .ok (.wait 0xFFFF#16) ∧
    ∃ r ∈ opcodeRows, r.accepts 0x6000FFFF#32 = true ∧ r.mnemonic = "WAIT" := by decide

/-- One word for each reason, and the last profile number and the last operand value that are accepted. -/
theorem test_witness_ReservedWordsAreExactlyTheRefusedOnes :
    boot.cfg.WellFormed ∧ (withOps boot [0x0FFFFFFF#32]).inputs.ops = 0x0FFFFFFF#32 :: [] ∧
    (0x0FFFFFFF#32 : Word).extractLsb' 28 4 = 0#4 ∧
    (∀ r ∈ opcodeRows, (0x60010000#32 : Word) &&& r.mask ≠ r.value) ∧
    ((0xD0000002#32 : Word).extractLsb' 28 4 = 0xD#4 ∧ boot.cfg.nprof ≤ ((0xD0000002#32 : Word).extractLsb' 0 8).toNat) ∧
    ((0xE00000FF#32 : Word).extractLsb' 28 4 = 0xE#4 ∧ boot.cfg.nprof ≤ ((0xE00000FF#32 : Word).extractLsb' 0 8).toNat) ∧
    ¬ boot.cfg.nprof ≤ ((0xD0000001#32 : Word).extractLsb' 0 8).toNat := by decide +kernel

theorem test_witness_StepRunsTheDecodedInstruction :
    (withOps boot [0xD0000001#32, 0x50000000#32]).inputs.ops = 0xD0000001#32 :: [0x50000000#32] ∧
    boot.cfg.WellFormed ∧ decode boot.cfg 0xD0000001#32 = .ok (.applyprof 1#8) ∧
    (Instr.verifyprof 1#8).wellFormed boot.cfg = true := by decide +kernel

theorem test_witness_IllFormedConfigurationIsRefused : ¬ (bootWith (sized 16385 1)).cfg.WellFormed := by decide

theorem test_witness_EveryStepKeepsTheInvariant :
    (withOps served [0xF000C001#32]).Inv ∧ ∃ t, step (withOps served [0xF000C001#32]) = .next t :=
  ⟨by decide +kernel, next_of (by decide +kernel)⟩

/-- In Startup and in Loop. -/
theorem test_witness_SequencerKeepsTheBusDriven :
    ((State.resetFrom tc (Inputs.none 0)).LoopInv ∧ ∃ t, step (State.resetFrom tc (Inputs.none 0)) = .next t) ∧
    ((withPasses boot [.poll (some (.verifyProfile 1#8))]).LoopInv ∧
      ∃ t, step (withPasses boot [.poll (some (.verifyProfile 1#8))]) = .next t) :=
  ⟨⟨by decide +kernel, next_of (by decide +kernel)⟩, ⟨by decide +kernel, next_of (by decide +kernel)⟩⟩

/-- A state that holds an event, a fault and a sample, on which a serve adds one of each. -/
def busy : State :=
  withOps { served with events := [.dir .output], faults := [.uninitRead .char 7] } [0xF0000005#32]

theorem test_witness_HistoryAndFaultsOnlyGrow :
    busy.prevValid = true ∧ ∃ t, step busy = .next t ∧
      (t.faults, t.events.length) = ([.uninitRead .char 7, .uninitRead .char 5], 2) :=
  ⟨by decide, after_eq (by decide +kernel)⟩

theorem test_witness_EventsTellEveryLineChange :
    ∃ t, step (withOps boot [0x80000E00#32]) = .next t ∧ (decide (t.lines ≠ boot.lines), t.events.length) = (true, 16) :=
  after_eq (by decide +kernel)

theorem test_witness_SequencerNeverReturnsToStartup :
    (∃ t, step (withPasses (withIn boot [0x00000005#32] [] []) [.iter]) = .next t ∧ t.seq = .loop) ∧
    ∃ t, step (State.resetFrom tc (Inputs.none 0)) = .next t ∧ t.seq = .loop :=
  ⟨after_eq (by decide +kernel), after_eq (by decide +kernel)⟩

/-- A well-formed operation, and a step that ends in each of the three refusals. -/
theorem test_witness_EveryOperationCompletes :
    (Instr.applyprof 1#8).wellFormed boot.cfg = true ∧
    step (withOps boot [0x00000000#32]) = .refused (.reservedWord .opZero 0x00000000#32) ∧
    step (withPasses boot [.poll (some (.applyProfile 2#8))]) = .refused (.noSuchProfile 2#8) ∧
    step (bootWith { tc with tEL := 0 }) = .refused (.illFormedConfig .strobeLowTooShort) :=
  ⟨by decide, rfl, rfl, rfl⟩

/-- Each clause's premise, met by an operation the clause names. -/
theorem test_witness_AccessMatrix :
    (∃ t, exec (.setdir .input) served = .next t ∧ decide (t.dir ≠ served.dir) = true) ∧
    (∃ t, exec (.buswr 1#8) served = .next t ∧ decide (t.dout ≠ served.dout) = true) ∧
    (∃ t, exec (.setctl 0#1 0#1 1#1) served = .next t ∧
      (decide (t.ncs ≠ served.ncs), decide (t.rs ≠ served.rs), decide (t.rw ≠ served.rw)) = (true, true, true)) ∧
    (∃ t, exec .pulse { served with e := 1#1 } = .next t ∧ decide (t.e ≠ 1#1) = true) ∧
    (∃ t, exec (.setmode .pixelMode) served = .next t ∧ decide (t.mode ≠ served.mode) = true) ∧
    (∃ t, exec .iter (withIn served [0#32] [] []) = .next t ∧ decide (t.prev ≠ served.prev) = true) ∧
    (∃ t, exec (.rdreg 1#5) { served with txn := some ⟨0#5, .read, 0#8, 1⟩ } = .next t ∧
      decide (t.txn ≠ some ⟨0#5, .read, 0#8, 1⟩) = true) ∧
    (∃ t, exec (.verifyprof 1#8) served = .next t ∧ decide (t.verifyResult ≠ none) = true) ∧
    (∃ t, exec (.serve 2000#14 0#3) served = .next t ∧ decide (t.faults ≠ []) = true) :=
  ⟨after_eq (by decide +kernel), after_eq (by decide +kernel), after_eq (by decide +kernel),
   after_eq (by decide +kernel), after_eq (by decide +kernel), after_eq (by decide +kernel),
   after_eq (by decide +kernel), after_eq (by decide +kernel), after_eq (by decide +kernel)⟩

theorem test_witness_SetdirResult :
    (∃ t, exec (.setdir .output) boot = .next t) ∧ ∃ t, exec (.setdir .input) boot = .next t := ⟨⟨_, rfl⟩, ⟨_, rfl⟩⟩

theorem test_witness_BuswrResult :
    (∃ t, exec (.buswr 0xFF#8) boot = .next t) ∧ ∃ t, exec (.buswr 0xFF#8) { boot with dir := .input } = .next t :=
  ⟨⟨_, rfl⟩, ⟨_, rfl⟩⟩

/-- An input byte given; the block driving; nothing given. -/
theorem test_witness_BusrdResult :
    (({ boot with dir := .input } : State).dir = .input ∧
      (withIn { boot with dir := .input } [] [0x07#8] []).inputs.busIns = 0x07#8 :: []) ∧
    boot.dir = .output ∧ ({ boot with dir := .input } : State).inputs.busIns = [] := by decide +kernel

theorem test_witness_RdregResult :
    (withIn boot [] [0x03#8] []).inputs.busIns = 0x03#8 :: [] ∧ boot.inputs.busIns = [] := by decide +kernel

theorem test_witness_RegisterAccessTakesItsTime :
    boot.cfg.WellFormed ∧ (∃ t evs, exec (.wrreg 0#5 0#8) boot = .next t ∧ t.events = boot.events ++ evs) ∧
    ∃ t evs, exec (.rdreg 31#5) boot = .next t ∧ t.events = boot.events ++ evs :=
  ⟨by decide, ⟨_, _, rfl, rfl⟩, ⟨_, _, rfl, rfl⟩⟩

/-- Cut where the controller is about to be asked to drive: nine events in, after `Dir(0)`. -/
theorem test_witness_RdregNeverDrivesAgainstTheController :
    boot.ncs = 1#1 ∧ ∃ t evs done rest, exec (.rdreg 16#5) boot = .next t ∧ t.events = boot.events ++ evs ∧
      evs = done ++ rest ∧ done.length = 10 :=
  ⟨by decide, _, _, (boot.readRegister 16#5).2.events.take 10, (boot.readRegister 16#5).2.events.drop 10, rfl, rfl,
   (List.take_append_drop _ _).symm, by decide +kernel⟩

theorem test_witness_AddressReadIsNeverStrobed :
    boot.e = 0#1 ∧ Instr.wrreg 1#5 2#8 ≠ .pulse ∧ ∃ t evs done rest, exec (.wrreg 1#5 2#8) boot = .next t ∧
      t.events = boot.events ++ evs ∧ evs = done ++ rest ∧ done.length = 5 :=
  ⟨by decide, by decide, _, _, (boot.writeRegister 1#5 2#8).events.take 5, (boot.writeRegister 1#5 2#8).events.drop 5,
   rfl, rfl, (List.take_append_drop _ _).symm, by decide +kernel⟩

/-- The switch itself, and an unchanged key after it, bit 31 of the snapshot masked off (P2). -/
theorem test_witness_ModeSwitchIsImmediateAndDoesNotReserve :
    (∃ t, exec (.setmode .pixelMode) served = .next t) ∧
    (withIn served [0x80000001#32] [] []).inputs.samples = 0x80000001#32 :: [] ∧ served.prevValid = true ∧
    0x80000001#32 &&& served.cfg.cmpMask = served.prev ∧
    ∃ t, exec (.setmode .pixelMode) (withIn served [0x80000001#32] [] []) = .next t :=
  ⟨⟨_, rfl⟩, rfl, rfl, by decide +kernel, ⟨_, rfl⟩⟩

theorem test_witness_ResetpatCornerCells :
    boot.cfg.charPlaneSize = 2000 ∧ boot.cfg.pixelPlaneSize = 8000 ∧ ∃ t, exec .resetpat boot = .next t :=
  ⟨rfl, rfl, ⟨_, rfl⟩⟩

/-- Two states with different planes. -/
theorem test_witness_ResetpatIsIdempotentAndForgetful :
    served.Inv ∧ boot.Inv ∧ served.cfg = boot.cfg ∧ served.cplane ≠ boot.cplane ∧
    (∃ t, exec .resetpat served = .next t) ∧ ∃ t, exec .resetpat boot = .next t :=
  ⟨by decide +kernel, by decide +kernel, rfl, by decide, ⟨_, rfl⟩, ⟨_, rfl⟩⟩

/-- Contents given and none given; the last cell the contents reach, the last cell of the plane, the first beyond. -/
theorem test_witness_FillplaneResult :
    (withIn (bootWith (sized 3 2)) [] [] [[1#8, 2#8]]).inputs.fills = [1#8, 2#8] :: [] ∧
    (bootWith (sized 3 2)).inputs.fills = [] ∧
    (1 < (sized 3 2).planeSize .char ∧ 1 < [1#8, 2#8].length) ∧ 2 < (sized 3 2).planeSize .char ∧
    (sized 3 2).planeSize .char ≤ 3 ∧ Plane.pix ≠ .char := by decide

theorem test_witness_PlanesAreWrittenInBulkOnly :
    instrFillsPlane (.serve 1#14 0#3) = false ∧ ∃ t, exec (.serve 1#14 0#3) served = .next t := ⟨rfl, ⟨_, rfl⟩⟩

/-- The last glyph byte and the last cell (V27), and the last pixel cell. -/
theorem test_witness_ServeInRangeResult :
    let s := { served with cplane := [(1999, 0xFF#8)] }
    ((0xFF#8 : Byte).toNat * 8 + (7#3).toNat < 2048 ∧ s.mode = .characterMode ∧
      (1999#14).toNat < s.cfg.charPlaneSize ∧ s.cplane.read (1999#14).toNat = some 0xFF#8) ∧
    (({ served with mode := .pixelMode } : State).mode = .pixelMode ∧ (7999#14).toNat < served.cfg.pixelPlaneSize ∧
      served.pplane.read (7999#14).toNat = some 0x3F#8) := by decide +kernel

theorem test_witness_PixelServeIgnoresTheRow :
    ({ served with mode := .pixelMode } : State).mode = .pixelMode := by decide

/-- The first address beyond each plane, and an unwritten last cell of each. -/
theorem test_witness_FaultingServeRecordsAndDrives :
    boot.mode = .characterMode ∧ boot.cfg.planeSize .char ≤ (2000#14).toNat ∧ boot.cfg.oorPolicy = .fault ∧
    boot.cfg.planeSize .pix ≤ (8000#14).toNat ∧
    ((1999#14).toNat < boot.cfg.planeSize .char ∧ (boot.plane .char).read (1999#14).toNat = none) ∧
    ((7999#14).toNat < boot.cfg.planeSize .pix ∧ (boot.plane .pix).read (7999#14).toNat = none) := by decide +kernel

/-- Both policies, at the first address beyond the plane and at the last there is. -/
theorem test_witness_WrapAndClampServeAnotherCell :
    let w := { served with cfg := { tc with oorPolicy := .wrap } }
    let k := { served with cfg := { tc with oorPolicy := .clamp }, mode := .pixelMode }
    (w.cfg.WellFormed ∧ w.mode = .characterMode ∧ w.cfg.planeSize .char ≤ (2000#14).toNat ∧
      w.cfg.oorPolicy = .wrap) ∧
    (k.cfg.WellFormed ∧ k.mode = .pixelMode ∧ k.cfg.planeSize .pix ≤ (0x3FFF#14).toNat ∧ k.cfg.oorPolicy = .clamp) ∧
    ∃ t, exec (.serve 2001#14 0#3) { w with faults := [.outOfRangeAddress .char 3] } = .next t ∧
      decide (Fault.outOfRangeAddress .char 3 ∈ t.faults) = true :=
  ⟨by decide +kernel, by decide +kernel, after_eq (by decide +kernel)⟩

theorem test_witness_ServeRecordsAtMostOneFault :
    (∃ t, exec (.serve 9000#14 0#3) served = .next t ∧ t.faults.length = 1) ∧
    ∃ t, exec (.serve 1#14 0#3) served = .next t ∧ t.faults.length = 0 :=
  ⟨after_eq (by decide +kernel), after_eq (by decide +kernel)⟩

theorem test_witness_OnlyServesRecordFaults :
    instrServes (.verifyprof 1#8) = false ∧ ∃ t, exec (.verifyprof 1#8) boot = .next t :=
  ⟨rfl, next_of (by decide +kernel)⟩

/-- An unchanged key, a first sample, and a key that differs in the top row bit only. -/
theorem test_witness_IterResult :
    (withIn served [0x00020001#32] [] []).inputs.samples = 0x00020001#32 :: [] ∧
    (served.prevValid = true ∧ 0x00020001#32 &&& served.cfg.cmpMask = served.prev) ∧
    boot.prevValid = false ∧ 0x00010001#32 &&& served.cfg.cmpMask ≠ served.prev := by decide +kernel

theorem test_witness_IterServesExactlyOncePerChange :
    (∃ t, exec .iter (withIn served [0x00010001#32] [] []) = .next t ∧ t.events.length = 2) ∧
    ∃ t, exec .iter (withIn served [0x00000001#32] [] []) = .next t ∧ t.events.length = 1 :=
  ⟨after_eq (by decide +kernel), after_eq (by decide +kernel)⟩

theorem test_witness_RepeatedSnapshotIsNotServedAgain :
    let s := withIn boot [0x00000001#32, 0x80000001#32] [] []
    s.inputs.samples = 0x00000001#32 :: 0x80000001#32 :: [] ∧
    0x00000001#32 &&& s.cfg.cmpMask = 0x80000001#32 &&& s.cfg.cmpMask ∧ ∃ t, exec .iter s = .next t :=
  ⟨rfl, by decide +kernel, next_of (by decide +kernel)⟩

/-- A change of address bit 0 only and of row bit 2 only. -/
theorem test_witness_NoAddressChangeEscapesTheMask :
    tc.WellFormed ∧ (0x00000000#32 : Word).extractLsb' 0 14 ≠ (0x00000001#32 : Word).extractLsb' 0 14 ∧
    (0x00000000#32 : Word).extractLsb' 14 3 ≠ (0x00010000#32 : Word).extractLsb' 14 3 := by decide

theorem test_witness_ApplyprofResult : boot.cfg.profiles[(1#8).toNat]? = some text40 := by decide +kernel

/-- The first number that names no profile, and the last number there is. -/
theorem test_witness_UnknownProfileIsRefused :
    boot.cfg.nprof ≤ (2#8).toNat ∧ boot.cfg.nprof ≤ (255#8).toNat := by decide

/-- READABLE = (14, 15) of the profile registers, and two answers with one byte left over. -/
theorem test_witness_VerifyprofResult :
    let regs := (List.finRange 16).filter (fun r => boot.cfg.readable.contains (BitVec.ofNat 5 r.val))
    boot.cfg.profiles[(0#8).toNat]? = some text80 ∧ regs ≠ [] ∧
    (withIn boot [] [0x3F#8, 0x00#8, 0x55#8] []).inputs.busIns = [0x3F#8, 0x00#8] ++ [0x55#8] ∧
    [0x3F#8, 0x00#8].length = regs.length := by decide +kernel

theorem test_witness_VerifyprofWithNothingReadable :
    let s := bootWith { tc with readable := [16#5, 17#5] }
    (∀ r : Fin 16, BitVec.ofNat 5 r.val ∉ s.cfg.readable) ∧ ∃ t, exec (.applyprof 1#8) s = .next t :=
  ⟨by decide +kernel, next_of (by decide +kernel)⟩

theorem test_witness_StartupProgramsTheInitialProfile :
    let s := State.resetFrom { tc with initialProfile := 1 } (Inputs.none 0)
    s.cfg.WellFormed ∧ s.inputs.ops = [] ∧ s.seq = .startup ∧
    s.cfg.profiles[s.cfg.initialProfile]? = some text40 := by decide +kernel

/-- Also the first and the last event at which the reset byte stands, and the first after it. -/
theorem test_witness_ResetByteShowsForTwoEvents :
    (Inputs.none 0).ops = [] ∧ ∃ t, step (State.resetFrom tc (Inputs.none 0)) = .next t ∧
      (t.events.take 4).getLast? = some (.data 0x00#8) := ⟨rfl, after_eq (by decide +kernel)⟩

/-- An ITER, a poll with no token, a character with no entry, and one with an entry that is not the first. -/
theorem test_witness_LoopPassFollowsTheSchedule :
    boot.cfg.WellFormed ∧ boot.inputs.ops = [] ∧ boot.seq = .loop ∧
    (∀ p ∈ [Pass.iter, .poll none, .character 0x00#8, .character 0x50#8],
      (withPasses boot [p]).inputs.passes = p :: []) ∧
    (∀ e ∈ boot.cfg.cmdTable, e.1 ≠ 0x00#8) ∧
    (boot.cfg.cmdTable = [(0x52#8, .resetPattern)] ++ (0x50#8, .setMode .pixelMode) :: [] ∧
      ∀ e ∈ [((0x52#8 : Byte), Command.resetPattern)], e.1 ≠ 0x50#8) := by decide +kernel

/-- Each command the host can offer, and the profile operations running. -/
theorem test_witness_CommandDispatch :
    boot.cfg.WellFormed ∧ boot.inputs.ops = [] ∧ boot.seq = .loop ∧
    (∀ c ∈ [Command.setMode .pixelMode, .resetPattern, .fill .pix [0xAA#8], .applyProfile 1#8, .verifyProfile 1#8],
      (withPasses boot [.poll (some c)]).inputs.passes = .poll (some c) :: []) ∧
    (∃ t, exec (.applyprof 1#8) boot = .next t) ∧ ∃ t, exec (.verifyprof 1#8) boot = .next t :=
  ⟨by decide, rfl, rfl, by decide, next_of (by decide +kernel), next_of (by decide +kernel)⟩

/-- The last register a write reaches and the first it does not. -/
theorem test_witness_WrregReachesTheController :
    (∃ t, exec (.wrreg 15#5 0xC0#8) boot = .next t ∧
      (Controller.unknown.run boot.lines t.events).regs[15] = some 0xC0#8) ∧
    ∃ t, exec (.wrreg 16#5 0x55#8) boot = .next t ∧
      (Controller.unknown.run boot.lines t.events).regs[16] = none :=
  ⟨after_eq (by decide +kernel), after_eq (by decide +kernel)⟩

theorem test_witness_ApplyprofProgramsTheController :
    boot.cfg.profiles[(1#8).toNat]? = some text40 ∧ ∃ t, exec (.applyprof 1#8) boot = .next t ∧
      ((Controller.unknown.run boot.lines t.events).regs[0],
       (Controller.unknown.run boot.lines t.events).regs[16]) = (some 0x38#8, none) :=
  ⟨by decide +kernel, after_eq (by decide +kernel)⟩

/-- A run whose two answers are the bytes written, from an unknown controller. -/
theorem test_witness_VerifyprofFindsNoMismatchUnderARead :
    ∃ t, exec (.verifyprof 1#8) (withIn boot [] [0x00#8, 0x00#8] []) = .next t ∧
      Controller.unknown.answersReads tc boot.lines t.events = true := after_eq (by decide +kernel)

/-- A wrong answer breaks the premise, so it is no empty one. -/
theorem test_witness_ARead_is_broken_by_a_wrong_answer :
    ∃ t, exec (.verifyprof 1#8) (withIn boot [] [0x3F#8, 0x00#8] []) = .next t ∧
      Controller.unknown.answersReads tc boot.lines t.events = false := after_eq (by decide +kernel)

/-- R133: a bare BUSRD in a read data phase with no PULSE in it is not RDREG's step 9, and A-READ asks nothing of it; one
right after the PULSE is, and a wrong byte there breaks A-READ (V17's controller, CTRL_R[14] = 0x03). -/
theorem test_ARead_asks_only_of_step_9 :
    let c : Controller := ⟨some 14#5, Vector.replicate 18 (some 0x03#8)⟩
    let v : LineView := ⟨.input, 0x0E#8, 0#1, 1#1, 1#1, 0#1⟩
    c.answersReads tc v [.busRead 0x55#8] = true ∧
    c.answersReads tc v [.strobe 1#1, .delay 1, .strobe 0#1, .delay 1, .busRead 0x55#8] = false ∧
    c.answersReads tc v [.strobe 1#1, .delay 1, .strobe 0#1, .delay 1, .busRead 0x03#8] = true ∧
    c.drives tc v = none ∧ c.drives tc (v.after (.strobe 1#1)) = some (some 0x03#8) := by decide +kernel

/-- The last register there is, READABLE and known, and an answer that agrees. -/
theorem test_witness_RdregReturnsTheRegisterUnderARead :
    let c : Controller := ⟨none, Vector.replicate 18 (some 0x03#8)⟩
    (17#5).toNat < 18 ∧ 17#5 ∈ tc.readable ∧ c.regs[17] = some 0x03#8 ∧
    ∃ t, exec (.rdreg 17#5) (withIn boot [] [0x03#8] []) = .next t ∧
      c.answersReads tc boot.lines t.events = true :=
  ⟨by decide, by decide +kernel, by decide +kernel, after_eq (by decide +kernel)⟩

/-- A run whose environment offers an ITER on one held snapshot at every pass: only the history grows. -/
def heldRun (n : Nat) : State :=
  { served with events := List.replicate n (.addrSample 0x00000001#32), inputs := Inputs.none 1 }

/-- What that environment gives at every pass. -/
def heldEnv (_ : Nat) : Inputs := { Inputs.none 1 with samples := [0x00000001#32], passes := [.iter] }

theorem heldRun_step (n : Nat) : step ((heldRun n).setInputs (heldEnv n)) = .next (heldRun (n + 1)) := by
  have hc : configProblem ((heldRun n).setInputs (heldEnv n)).cfg = none := show configProblem tc = none by decide
  have hq : ∀ evs, State.changed { served with events := evs, inputs := Inputs.none 1 } 0x00000001#32 = false :=
    fun _ => show served.changed 0x00000001#32 = false by decide
  simp only [step, hc]
  refine congrArg Host.Outcome.next ?_
  show State.respond { heldRun n with inputs := Inputs.none 1 } 0x00000001#32 = _
  simp only [State.respond, State.emit, heldRun, hq, List.replicate_succ', Bool.false_eq_true, if_false]

theorem test_witness_FairRunsServeAHeldAddress :
    SequencerRun heldRun heldEnv ∧ FairRun heldRun heldEnv ∧
    ∀ m, 0 ≤ m → ∃ rest, (heldEnv m).samples = 0x00000001#32 :: rest :=
  ⟨fun n => ⟨rfl, Nat.le_refl _, heldRun_step n⟩, fun n => ⟨n, Nat.le_refl _, rfl, rfl⟩, fun _ _ => ⟨[], rfl⟩⟩

theorem test_witness_DeselectedControllerIsNeverWritten :
    boot.ncs = 1#1 ∧ instrRunsAccess .pulse = false ∧ (∃ t, exec .pulse boot = .next t) ∧
    instrRunsAccess (.setctl 0#1 1#1 0#1) = false ∧ ∃ t, exec (.setctl 0#1 1#1 0#1) boot = .next t :=
  ⟨by decide, rfl, ⟨_, rfl⟩, rfl, ⟨_, rfl⟩⟩

end Sys2Proof.Tests
end

section
/-! The configuration of the machine at reset (R13 to R16). -/

namespace Sys2Proof

/-- There is at least one profile, however many the OPEN rest of R179 has. -/
theorem Config.deployed_nprof_pos : 0 < Config.deployed.nprof :=
  List.length_pos_of_ne_nil (List.cons_ne_nil Config.openFirstProfile Config.openMoreProfiles)

/-- R199: the defaults lie within every bound, and the initial profile, number 0, is among the profiles. -/
theorem Config.deployed_wellFormed : Config.deployed.WellFormed := by
  have hstrobe : 1 ≤ Config.deployed.tEH ∧ 1 ≤ Config.deployed.tEL := ⟨Nat.le_refl 1, Nat.le_refl 1⟩
  have hmask : Config.deployed.cmpMask &&& 0x0001FFFF#32 = 0x0001FFFF#32 := BitVec.and_self
  have hchar : 1 ≤ Config.deployed.charPlaneSize ∧ Config.deployed.charPlaneSize ≤ 16384 := by decide
  have hpixel : 1 ≤ Config.deployed.pixelPlaneSize ∧ Config.deployed.pixelPlaneSize ≤ 16384 := by decide
  exact ⟨hstrobe.1, hstrobe.2, hmask, hchar, hpixel, Config.deployed_nprof_pos⟩

end Sys2Proof

namespace Sys2Proof.Machine

/-- The machine at reset runs with the deployed configuration (log entry 4). -/
@[simp] theorem State.reset_cfg : State.reset.cfg = Config.deployed := rfl

/-- Settles O8: the reset machine's configuration is the deployed one, which is well-formed and has the defaults as
its fields. -/
theorem resetConfigurationHasTheDefaults : Obligations.ResetConfigurationHasTheDefaults := by
  unfold Obligations.ResetConfigurationHasTheDefaults
  rw [State.reset_cfg]
  exact ⟨Config.deployed_wellFormed, rfl, rfl, rfl, rfl, rfl, rfl, rfl, Config.deployed_nprof_pos⟩

end Sys2Proof.Machine
end

section
/-! What an operation can have done, said once, and what every step then keeps. -/

namespace Sys2Proof.Machine

/-! ### Operations by what they write -/

/-- An operation that runs a register access neither sets MODE nor fills a plane. -/
theorem not_setmode_nor_fills_of_runsAccess {i : Instr} (h : instrRunsAccess i = true) :
    ¬ ((∃ m, i = .setmode m) ∨ instrFillsPlane i = true) := by
  cases i <;> simp [instrRunsAccess, instrFillsPlane] at h ⊢

/-- The ways an operation that answers a next state reaches `t` from `s`. A serve's faults are the old ones with at
most one new (R200); a register access is known by its frame and its end state (R121, R126). -/
inductive ExecTo (s : State) : Instr → State → Prop where
  | setdir (d : Direction) : ExecTo s (.setdir d) (s.setDirection d)
  | buswr (v : Byte) : ExecTo s (.buswr v) (s.busWrite v)
  | busrd (v : Byte) (j : Inputs) (hj : s.inputs.Consumed j) : ExecTo s .busrd ((s.setInputs j).emit (.busRead v))
  | setctl (ncs rs rw : Bit) : ExecTo s (.setctl ncs rs rw) (s.setCtl ncs rs rw)
  | pulse : ExecTo s .pulse s.pulse
  | wait (n : BitVec 16) : ExecTo s (.wait n) (s.delay n.toNat)
  | access (i : Instr) (t : State) (hi : instrRunsAccess i = true) (hf : ProtocolFrame s t) (htxn : t.txn = none)
      (he : t.e = 0#1) (hncs : t.ncs = 1#1) : ExecTo s i t
  | verifyprof (p : BitVec 8) (mask : BitVec 16) (u : State) (hf : ProtocolFrame s u) (htxn : u.txn = none)
      (he : u.e = 0#1) (hncs : u.ncs = 1#1) : ExecTo s (.verifyprof p) (u.setVerify mask)
  | setmode (m : VideoMode) : ExecTo s (.setmode m) (s.setMode m)
  | resetpat : ExecTo s .resetpat s.resetPattern
  | fillplane (pl : Plane) (given : List Byte) (j : Inputs) (hj : s.inputs.Consumed j) :
      ExecTo s (.fillplane pl) ((s.setInputs j).fillWith pl given)
  | sample (raw : Word) (j : Inputs) (hj : s.inputs.Consumed j) :
      ExecTo s .iter ((s.setInputs j).emit (.addrSample raw))
  | respond (raw : Word) (b : Byte) (fs : List Fault) (j : Inputs) (hj : s.inputs.Consumed j)
      (hfs : fs = s.faults ∨ ∃ f, f ∉ s.faults ∧ fs = s.faults ++ [f]) :
      ExecTo s .iter { s with
        dout := b, faults := fs, prev := changeKey s.cfg raw, prevValid := true, lstate := .idle,
        events := s.events ++ [.addrSample raw, .data b], inputs := j }
  | serve (a : BitVec 14) (row : BitVec 3) (b : Byte) (fs : List Fault) (n : Nat)
      (hfs : fs = s.faults ∨ ∃ f, f ∉ s.faults ∧ fs = s.faults ++ [f]) :
      ExecTo s (.serve a row) { s with
        dout := b, faults := fs, events := s.events ++ [.data b], inputs := { s.inputs with draws := n } }

/-- An iteration, over whatever inputs its sample has left (R160, R162). -/
theorem respond_execTo (s : State) (raw : Word) (j : Inputs) (hj : s.inputs.Consumed j) :
    ExecTo s .iter ((s.setInputs j).respond raw) := by
  rcases (s.setInputs j).respond_spec raw with ⟨_, h⟩ | ⟨_, h⟩ <;> rw [h]
  · exact .sample raw j hj
  · obtain ⟨b, fs, n, hfs, hs⟩ :=
      ((s.setInputs j).emit (.addrSample raw)).serve_frame (snapshotAddr raw) (snapshotRow raw)
    rw [State.serve_setLoop, hs]
    simpa [State.setLoop, State.recordSample] using ExecTo.respond raw b fs { j with draws := n } hj hfs

/-- An operation that answers a next state has done what `ExecTo` lists for it. -/
theorem exec_cases {i : Instr} {s t : State} (h : exec i s = .next t) : ExecTo s i t := by
  cases i with
  | setdir d => cases h; exact .setdir d
  | buswr v => cases h; exact .buswr v
  | busrd =>
    obtain ⟨v, j, hb, hj⟩ := s.busRead_spec
    cases h
    rw [hb]
    exact .busrd v j hj
  | setctl ncs rs rw => cases h; exact .setctl ncs rs rw
  | pulse => cases h; exact .pulse
  | wait n => cases h; exact .wait n
  | wrreg idx v =>
    obtain ⟨hf, htxn, he, _, hncs⟩ := s.writeRegister_frame idx v
    cases h
    exact .access _ _ rfl hf htxn he hncs
  | rdreg idx =>
    obtain ⟨hf, htxn, he, _, hncs⟩ := s.readRegister_frame idx
    cases h
    exact .access _ _ rfl hf htxn he hncs
  | setmode m => cases h; exact .setmode m
  | resetpat => cases h; exact .resetpat
  | fillplane pl =>
    obtain ⟨c, j, hc, hj⟩ := s.takeFill_spec
    cases h
    rw [hc]
    exact .fillplane pl c j hj
  | iter =>
    obtain ⟨raw, j, hs, hj⟩ := s.takeSample_spec
    cases h
    rw [hs]
    exact respond_execTo s raw j hj
  | applyprof p =>
    obtain ⟨prof, _, rfl⟩ := execApplyprof_next h
    obtain ⟨hf, htxn, he, _, hncs⟩ := s.applyProfile_frame prof
    exact .access _ _ rfl hf htxn he hncs
  | verifyprof p =>
    obtain ⟨prof, _, rfl⟩ := execVerifyprof_next h
    obtain ⟨u, mask, hu, hf, htxn, he, hncs⟩ := s.verifyProfile_frame prof
    rw [hu]
    exact .verifyprof p mask u hf htxn he hncs
  | serve a row =>
    obtain ⟨b, fs, n, hfs, hs⟩ := s.serve_frame a row
    cases h
    rw [hs]
    exact .serve a row b fs n hfs

end Sys2Proof.Machine
end

section
/-! The access table (10_state R50): what each operation leaves alone. -/

namespace Sys2Proof.Machine

/-- Settles O34: of the ways `ExecTo` lists, only a fill and the pattern touch a plane. -/
theorem planesAreWrittenInBulkOnly : Obligations.PlanesAreWrittenInBulkOnly := by
  unfold Obligations.PlanesAreWrittenInBulkOnly
  intro i s t hi h
  cases exec_cases h with
  | resetpat => cases hi
  | fillplane => cases hi
  | access _ _ _ hf => exact ⟨hf.cplane, hf.pplane⟩
  | verifyprof _ _ _ hf => exact ⟨hf.cplane, hf.pplane⟩
  | setdir | buswr | busrd | setctl | pulse | wait | setmode | sample | respond | serve => exact ⟨rfl, rfl⟩

/-- Settles O17: each way `ExecTo` lists writes only what the table gives its operation. -/
theorem accessMatrix : Obligations.AccessMatrix := by
  unfold Obligations.AccessMatrix
  intro i s t h
  cases exec_cases h with
  | access _ _ hi hf =>
    simp [hi, hf.cfg, hf.seq, hf.mode, hf.prev, hf.prevValid, hf.lstate, hf.verifyResult, hf.faults,
      not_setmode_nor_fills_of_runsAccess hi]
  | verifyprof p _ u hf =>
    simp [instrRunsAccess, instrFillsPlane, hf.cfg, hf.seq, hf.mode, hf.prev, hf.prevValid, hf.lstate, hf.faults]
  | fillplane pl given j hj => simp [State.fillWith, State.fillPlane]
  | resetpat => simp [State.resetPattern, State.fillPlane]
  | pulse => simp [State.pulse_eq, instrFillsPlane]
  | setdir | buswr | busrd | setctl | wait | setmode | sample | respond | serve =>
    simp [instrFillsPlane, instrServes]

/-- No operation takes a queued harness word (log entry 8). -/
theorem exec_ops {i : Instr} {s t : State} (h : exec i s = .next t) : t.inputs.ops = s.inputs.ops := by
  cases exec_cases h with
  | access _ _ _ hf => exact hf.ops
  | verifyprof _ _ _ hf => exact hf.ops
  | fillplane pl _ _ hj => cases pl <;> exact hj
  | busrd _ _ hj | sample _ _ hj | respond _ _ _ _ hj => exact hj
  | setdir | buswr | setctl | pulse | wait | setmode | resetpat | serve => rfl

end Sys2Proof.Machine
end

section
/-! What every step keeps. -/

namespace Sys2Proof.Machine

/-! ### Relations over a step -/

/-- A relation that composes and holds over each thing a step is made of: a change of the inputs, an operation, and
the sequencer's move to Loop. -/
structure StepClosed (R : State → State → Prop) : Prop where
  trans : ∀ {s t u : State}, R s t → R t u → R s u
  inputs : ∀ (s : State) (i : Inputs), R s (s.setInputs i)
  op : ∀ {i : Instr} {s t : State}, exec i s = .next t → R s t
  seq : ∀ s : State, R s (s.setSeq .loop)

/-- A host command's fill is a FILLPLANE with its contents queued (R150, R186). -/
theorem exec_fillplane_of_given (s : State) (pl : Plane) (given : List Byte) :
    exec (.fillplane pl) (s.setInputs { s.inputs with fills := given :: s.inputs.fills }) =
      .next (s.fillWith pl given) := rfl

/-- WRREG runs the protocol's write. -/
theorem exec_wrreg (s : State) (idx : BitVec 5) (v : Byte) : exec (.wrreg idx v) s = .next (s.writeRegister idx v) := rfl

section
variable {R : State → State → Prop} (hR : StepClosed R)
include hR

theorem StepClosed.fillWith (s : State) (pl : Plane) (given : List Byte) : R s (s.fillWith pl given) :=
  hR.trans (hR.inputs s _) (hR.op (exec_fillplane_of_given s pl given))

theorem StepClosed.setDirection (s : State) (d : Direction) : R s (s.setDirection d) :=
  hR.op (i := .setdir d) rfl

/-- The writes of a profile are WRREG operations (R175). -/
theorem StepClosed.writeRegisters (s : State) (prof : Profile) (rs : List (Fin 16)) :
    R s (rs.foldl (fun s r => s.writeRegister (profileRegIndex r) prof[r]) s) := by
  induction rs generalizing s with
  | nil => exact hR.inputs s s.inputs
  | cons r rs ih =>
    rw [List.foldl_cons]
    exact hR.trans (hR.op (exec_wrreg s (profileRegIndex r) prof[r])) (ih _)

/-- Such a relation holds over every step. -/
theorem StepClosed.step {s t : State} (h : step s = .next t) : R s t := by
  obtain ⟨-, hs⟩ := step_cases h
  cases hs with
  | operation _ _ _ _ _ _ hx => exact hR.trans (hR.inputs s _) (hR.op hx)
  | startup prof u _ _ _ hu =>
    subst hu
    exact hR.trans (hR.writeRegisters s prof _) (hR.trans (hR.setDirection _ _) (hR.seq _))
  | idle => exact hR.inputs s _
  | loopOperation _ _ _ _ _ _ _ hx => exact hR.trans (hR.inputs s _) (hR.op hx)
  | fill => exact hR.trans (hR.inputs s _) (hR.fillWith _ _ _)
  | profile _ _ _ _ _ _ _ hx => exact hR.trans (hR.inputs s _) (hR.trans (hR.op hx) (hR.setDirection _ _))

end

/-! ### What only grows (R37, R42, R43, R45) -/

/-- `t` keeps what `s` has of the configuration, the history, FAULTS and PREV_VALID. -/
structure Extends (s t : State) : Prop where
  cfg : t.cfg = s.cfg
  events : s.events <+: t.events
  faults : s.faults ⊆ t.faults
  prevValid : s.prevValid = true → t.prevValid = true

theorem Extends.trans {s t u : State} (h : Extends s t) (k : Extends t u) : Extends s u :=
  ⟨k.cfg.trans h.cfg, h.events.trans k.events, List.Subset.trans h.faults k.faults, k.prevValid ∘ h.prevValid⟩

theorem ProtocolFrame.toExtends {s t : State} (h : ProtocolFrame s t) : Extends s t := by
  obtain ⟨evs, he⟩ := h.events
  exact ⟨h.cfg, ⟨evs, he.symm⟩, h.faults ▸ List.Subset.refl _, fun hv => h.prevValid.trans hv⟩

/-- FAULTS after a serve holds every old fault (R200). -/
theorem subset_of_served_faults {fs gs : List Fault} (h : gs = fs ∨ ∃ f, f ∉ fs ∧ gs = fs ++ [f]) : fs ⊆ gs := by
  rcases h with rfl | ⟨f, _, rfl⟩
  · exact List.Subset.refl _
  · exact List.subset_append_left _ _

theorem exec_extends {i : Instr} {s t : State} (h : exec i s = .next t) : Extends s t := by
  cases exec_cases h with
  | access _ _ _ hf => exact hf.toExtends
  | verifyprof _ mask u hf => exact hf.toExtends.trans ⟨rfl, List.prefix_rfl, List.Subset.refl _, id⟩
  | respond _ _ _ _ _ hfs => exact ⟨rfl, List.prefix_append _ _, subset_of_served_faults hfs, fun _ => rfl⟩
  | serve _ _ _ _ _ hfs => exact ⟨rfl, List.prefix_append _ _, subset_of_served_faults hfs, id⟩
  | pulse =>
    rw [State.pulse_eq]
    exact ⟨rfl, List.prefix_append _ _, List.Subset.refl _, id⟩
  | setdir | buswr | busrd | setctl | wait | sample =>
    exact ⟨rfl, List.prefix_append _ _, List.Subset.refl _, id⟩
  | setmode | resetpat => exact ⟨rfl, List.prefix_rfl, List.Subset.refl _, id⟩
  | fillplane pl => cases pl <;> exact ⟨rfl, List.prefix_rfl, List.Subset.refl _, id⟩

theorem stepClosed_extends : StepClosed Extends where
  trans := Extends.trans
  inputs _ _ := ⟨rfl, List.prefix_rfl, List.Subset.refl _, id⟩
  op := exec_extends
  seq _ := ⟨rfl, List.prefix_rfl, List.Subset.refl _, id⟩

/-- Settles O13: `Extends` holds over each thing a step is made of. -/
theorem historyAndFaultsOnlyGrow : Obligations.HistoryAndFaultsOnlyGrow := by
  unfold Obligations.HistoryAndFaultsOnlyGrow
  intro s t h
  obtain ⟨hcfg, ⟨evs, hevs⟩, hfaults, hvalid⟩ := stepClosed_extends.step h
  exact ⟨hcfg, ⟨evs, hevs.symm⟩, hfaults, hvalid⟩

/-! ### The invariant of the boundaries between operations -/

theorem ProtocolFrame.inv {s t : State} (hf : ProtocolFrame s t) (htxn : t.txn = none) (he : t.e = 0#1)
    (h : s.Inv) : t.Inv := by
  obtain ⟨hcwf, hpwf, hcin, hpin, -, hidle, -, hnodup, hprev⟩ := h
  refine ⟨?_, ?_, ?_, ?_, htxn, ?_, he, ?_, ?_⟩
  · rwa [hf.cplane]
  · rwa [hf.pplane]
  · rwa [hf.cplane, hf.cfg]
  · rwa [hf.pplane, hf.cfg]
  · rwa [hf.lstate]
  · rwa [hf.faults]
  · rwa [hf.prev, hf.prevValid, hf.cfg]

/-- FAULTS after a serve is still a set (R42, R200). -/
theorem nodup_of_served_faults {fs gs : List Fault} (h : gs = fs ∨ ∃ f, f ∉ fs ∧ gs = fs ++ [f])
    (hfs : fs.Nodup) : gs.Nodup := by
  rcases h with rfl | ⟨f, hf, rfl⟩
  · exact hfs
  · exact hfs.append (List.nodup_singleton f) (by simpa using hf)

/-- A recorded key is masked already (R36, R158). -/
theorem changeKey_masked (c : Config) (raw : Word) : changeKey c raw &&& c.cmpMask = changeKey c raw := by
  rw [changeKey, BitVec.and_assoc, BitVec.and_self]

/-- A whole-plane write at the plane's own size stays inside it (R152). -/
theorem Memory.writeAll_within {m : Memory} {size : Nat} (f : Nat → Byte) (h : m.Within size) :
    (m.writeAll size f).Within size := fun _ hc => (Memory.mem_writeAll m f size hc).elim id (h _)

theorem State.fillPlane_inv {s : State} (pl : Plane) (f : Nat → Byte) (h : s.Inv) : (s.fillPlane pl f).Inv := by
  obtain ⟨hcwf, hpwf, hcin, hpin, hrest⟩ := h
  obtain ⟨hcwf', hpwf'⟩ := s.fillPlane_wf f pl hcwf hpwf
  cases pl with
  | char => exact ⟨hcwf', hpwf', Memory.writeAll_within f hcin, hpin, hrest⟩
  | pix => exact ⟨hcwf', hpwf', hcin, Memory.writeAll_within f hpin, hrest⟩

theorem exec_inv {i : Instr} {s t : State} (hx : exec i s = .next t) (h : s.Inv) : t.Inv := by
  cases exec_cases hx with
  | access _ _ _ hf htxn he => exact hf.inv htxn he h
  | verifyprof _ mask u hf htxn he => exact hf.inv htxn he h
  | resetpat => exact State.fillPlane_inv .pix pixelPattern (State.fillPlane_inv .char charPattern h)
  | fillplane pl given j => exact State.fillPlane_inv (s := s.setInputs j) pl _ h
  | pulse =>
    rw [State.pulse_eq]
    obtain ⟨hcwf, hpwf, hcin, hpin, htxn, hidle, -, hlast⟩ := h
    exact ⟨hcwf, hpwf, hcin, hpin, htxn, hidle, rfl, hlast⟩
  | respond raw b fs j _ hfs =>
    obtain ⟨hcwf, hpwf, hcin, hpin, htxn, -, he, hnodup, -⟩ := h
    exact ⟨hcwf, hpwf, hcin, hpin, htxn, rfl, he, nodup_of_served_faults hfs hnodup, fun _ => changeKey_masked s.cfg raw⟩
  | serve a row b fs n hfs =>
    obtain ⟨hcwf, hpwf, hcin, hpin, htxn, hidle, he, hnodup, hprev⟩ := h
    exact ⟨hcwf, hpwf, hcin, hpin, htxn, hidle, he, nodup_of_served_faults hfs hnodup, hprev⟩
  | setdir | buswr | busrd | setctl | wait | setmode | sample => exact h

theorem stepClosed_inv : StepClosed fun s t => s.Inv → t.Inv where
  trans h k := k ∘ h
  inputs _ _ := id
  op := exec_inv
  seq _ := id

/-- Settles O11: the invariant is kept over each thing a step is made of. -/
theorem everyStepKeepsTheInvariant : Obligations.EveryStepKeepsTheInvariant := by
  unfold Obligations.EveryStepKeepsTheInvariant
  intro s t h hstep
  exact stepClosed_inv.step hstep h

/-! ### The sequencer's own runs -/

/-- R50's rows of DIR and NCS: an operation the table does not name there leaves both. -/
theorem exec_keeps_dir_and_ncs {i : Instr} {s t : State} (h : exec i s = .next t) (hd : ∀ d, i ≠ .setdir d)
    (hc : ∀ a b c, i ≠ .setctl a b c) (ha : instrRunsAccess i = false) : t.dir = s.dir ∧ t.ncs = s.ncs := by
  obtain ⟨-, -, hdir, -, hctl, -⟩ := accessMatrix i s t h
  have hna : instrRunsAccess i ≠ true := by simp [ha]
  constructor
  · by_contra hne
    rcases hdir hne with ⟨d, hi⟩ | hi
    · exact hd d hi
    · exact hna hi
  · by_contra hne
    rcases hctl (.inl hne) with ⟨a, b, c, hi⟩ | hi
    · exact hc a b c hi
    · exact hna hi

/-- Reading the host's schedule takes no harness word. -/
theorem ops_of_passTaken {i j : Inputs} (h : i.PassTaken j) : j.ops = i.ops := by rw [h]

/-- An operation that runs register accesses ends with the controller deselected (R121, R126). -/
theorem exec_deselects {i : Instr} {s t : State} (h : exec i s = .next t) (ha : instrRunsAccess i = true) :
    t.ncs = 1#1 := by
  cases exec_cases h with
  | access _ _ _ _ _ _ hncs => exact hncs
  | verifyprof _ _ _ _ _ _ hncs => exact hncs
  | _ => cases ha

/-- Settles O12: Startup and the profile commands end with SETDIR output after a register access; the other passes
leave DIR and NCS alone. -/
theorem sequencerKeepsTheBusDriven : Obligations.SequencerKeepsTheBusDriven := by
  unfold Obligations.SequencerKeepsTheBusDriven
  rintro s t ⟨hops, hbus⟩ hstep
  obtain ⟨-, hs⟩ := step_cases hstep
  cases hs with
  | operation _ _ _ _ hw => simp [hops] at hw
  | startup prof u _ _ _ hu =>
    obtain ⟨hf, -, -, -, hncs⟩ := s.applyProfile_frame prof
    rw [hu] at hf hncs
    exact ⟨hf.ops.trans hops, fun _ => ⟨rfl, hncs⟩⟩
  | idle j ho hq hj => exact ⟨(ops_of_passTaken hj).trans hops, fun _ => hbus hq⟩
  | loopOperation j o _ ho hq hj hc hx =>
    obtain ⟨hdir, hncs⟩ : t.dir = (s.setInputs j).dir ∧ t.ncs = (s.setInputs j).ncs := by
      rcases hc with ⟨rfl, -⟩ | ⟨m, rfl⟩ | rfl <;> exact exec_keeps_dir_and_ncs hx nofun nofun rfl
    obtain ⟨hout, hdeselected⟩ := hbus hq
    exact ⟨(exec_ops hx).trans ((ops_of_passTaken hj).trans hops), fun _ => ⟨hdir.trans hout, hncs.trans hdeselected⟩⟩
  | fill j pl given ho hq hj =>
    cases pl <;> exact ⟨(ops_of_passTaken hj).trans hops, fun _ => hbus hq⟩
  | profile j o u ho hq hj hc hx =>
    have ha : instrRunsAccess o = true := by rcases hc with ⟨p, rfl⟩ | ⟨p, rfl⟩ <;> rfl
    have hncs : u.ncs = 1#1 := exec_deselects hx ha
    exact ⟨(exec_ops hx).trans ((ops_of_passTaken hj).trans hops), fun _ => ⟨rfl, hncs⟩⟩

/-! ### Reset -/

/-- Settles O9: every row of the table is a field of `State.resetFrom`. -/
theorem resetTableValues : Obligations.ResetTableValues := by
  unfold Obligations.ResetTableValues
  exact ⟨fun c i => ⟨rfl, rfl, rfl, rfl, rfl, rfl, rfl, fun _ => rfl, fun _ => rfl, rfl, rfl, rfl, rfl, rfl, rfl, rfl⟩,
    fun _ => rfl, _, _, rfl⟩

/-- Both planes and FAULTS are empty and no sample has been captured (R53). -/
theorem resetFrom_inv (c : Config) (i : Inputs) : (State.resetFrom c i).Inv :=
  ⟨.nil, .nil, nofun, nofun, rfl, rfl, rfl, .nil, nofun⟩

/-- Settles O10: `Inv` by the reset table; `LoopInv` because reset is in Startup with nothing queued. -/
theorem resetMeetsTheInvariants : Obligations.ResetMeetsTheInvariants := by
  unfold Obligations.ResetMeetsTheInvariants
  exact ⟨resetFrom_inv, resetFrom_inv _ _, rfl, nofun⟩

end Sys2Proof.Machine
end

section
/-! The events tell every change of the lines (R72). -/

namespace Sys2Proof.Machine

/-- The events `t` has beyond those of `s`, replayed over the lines of `s`, give the lines of `t`. -/
def Replays (s t : State) : Prop := ∃ evs, t.events = s.events ++ evs ∧ s.lines.run evs = t.lines

/-- Whatever leaves the history and the lines alone. -/
theorem Replays.of_eq {s t : State} (he : t.events = s.events) (hl : t.lines = s.lines) : Replays s t :=
  ⟨[], by rw [he, List.append_nil], hl.symm⟩

theorem Replays.trans {s t u : State} (h : Replays s t) (k : Replays t u) : Replays s u := by
  obtain ⟨xs, hx, hxl⟩ := h
  obtain ⟨ys, hy, hyl⟩ := k
  exact ⟨xs ++ ys, by rw [hy, hx, List.append_assoc], by rw [LineView.run_append, hxl, hyl]⟩

theorem State.writeRegister_replays (s : State) (idx : BitVec 5) (v : Byte) : Replays s (s.writeRegister idx v) := by
  rw [State.writeRegister_eq]
  exact ⟨_, rfl, rfl⟩

theorem State.readRegister_replays (s : State) (idx : BitVec 5) : Replays s (s.readRegister idx).2 := by
  rw [State.readRegister_eq]
  exact ⟨_, rfl, rfl⟩

theorem State.applyProfile_replays (s : State) (prof : Profile) : Replays s (s.applyProfile prof) :=
  List.foldlRecOn (motive := Replays s) _ _ (.of_eq rfl rfl) fun t h r _ =>
    h.trans (t.writeRegister_replays (profileRegIndex r) prof[r])

theorem State.readBack_replays (s : State) (prof : Profile) (rs : List (Fin 16)) (mask : BitVec 16) :
    Replays s (s.readBack prof rs mask).2 := by
  induction rs generalizing s mask with
  | nil => exact .of_eq rfl rfl
  | cons r rs ih => exact (s.readRegister_replays (profileRegIndex r)).trans (ih _ _)

theorem State.verifyProfile_replays (s : State) (prof : Profile) : Replays s (s.verifyProfile prof) :=
  (s.applyProfile_replays prof).trans ((State.readBack_replays _ prof (readableRegs s.cfg) 0#16).trans (.of_eq rfl rfl))

/-- The operations that run register accesses, of which `ExecTo` keeps only the frame. -/
theorem exec_access_replays {i : Instr} {s t : State} (hi : instrRunsAccess i = true) (h : exec i s = .next t) :
    Replays s t := by
  cases i with
  | wrreg idx v => cases h; exact s.writeRegister_replays idx v
  | rdreg idx => cases h; exact s.readRegister_replays idx
  | applyprof p => obtain ⟨prof, -, rfl⟩ := execApplyprof_next h; exact s.applyProfile_replays prof
  | verifyprof p => obtain ⟨prof, -, rfl⟩ := execVerifyprof_next h; exact s.verifyProfile_replays prof
  | _ => cases hi

theorem exec_replays {i : Instr} {s t : State} (h : exec i s = .next t) : Replays s t := by
  cases exec_cases h with
  | access _ _ hi => exact exec_access_replays hi h
  | verifyprof => exact exec_access_replays rfl h
  | pulse => rw [State.pulse_eq]; exact ⟨_, rfl, rfl⟩
  | setdir | buswr | busrd | setctl | wait | sample | respond | serve => exact ⟨_, rfl, rfl⟩
  | setmode | resetpat => exact .of_eq rfl rfl
  | fillplane pl => cases pl <;> exact .of_eq rfl rfl

theorem stepClosed_replays : StepClosed Replays where
  trans := Replays.trans
  inputs _ _ := .of_eq rfl rfl
  op := exec_replays
  seq _ := .of_eq rfl rfl

/-- Settles O14: `Replays` holds over each thing a step is made of. -/
theorem eventsTellEveryLineChange : Obligations.EventsTellEveryLineChange := by
  unfold Obligations.EventsTellEveryLineChange
  exact fun _ _ h => stepClosed_replays.step h

end Sys2Proof.Machine
end

section
/-! Serves whose read is out of range or finds an unwritten cell (R61 to R63, R157). -/

namespace Sys2Proof.Machine

/-! ### The address a read goes to (R61, R63) -/

/-- Only the Fault policy leaves a read without a cell, and only beyond the plane. -/
theorem resolveAddress_eq_none {policy : OorPolicy} {size a : Nat} :
    resolveAddress policy size a = none ↔ size ≤ a ∧ policy = .fault := by
  unfold resolveAddress
  by_cases h : a < size
  · simp [h]
  · cases policy <;> simp [h, Nat.le_of_not_lt h]

theorem resolveAddress_of_lt {policy : OorPolicy} {size a : Nat} (h : a < size) :
    resolveAddress policy size a = some a := if_pos h

theorem resolveAddress_wrap {size a : Nat} (h : size ≤ a) : resolveAddress .wrap size a = some (a % size) :=
  if_neg (Nat.not_lt.mpr h)

theorem resolveAddress_clamp {size a : Nat} (h : size ≤ a) : resolveAddress .clamp size a = some (size - 1) :=
  if_neg (Nat.not_lt.mpr h)

/-! ### Plane reads -/

/-- The fault joins FAULTS unless it is there already, and nothing else changes (R195). -/
theorem State.recordFault_eq (s : State) (f : Fault) :
    s.recordFault f = { s with faults := if f ∈ s.faults then s.faults else s.faults ++ [f] } := by
  unfold State.recordFault
  split <;> rfl

theorem State.mem_recordFault_faults {s : State} {f g : Fault} (h : g ∈ (s.recordFault f).faults) :
    g ∈ s.faults ∨ g = f := by
  rw [State.recordFault_faults] at h
  split at h
  · exact .inl h
  · simpa using h

/-- A read beyond the plane under the Fault policy (R61). -/
theorem State.memRead_of_beyond {s : State} {pl : Plane} {a : Nat} (ha : s.cfg.planeSize pl ≤ a)
    (hp : s.cfg.oorPolicy = .fault) : s.memRead pl a = (s.recordFault (.outOfRangeAddress pl a)).draw := by
  rw [State.memRead, resolveAddress_eq_none.mpr ⟨ha, hp⟩]

/-- A read of an unwritten cell (R61, R62). -/
theorem State.memRead_of_unwritten {s : State} {pl : Plane} {a : Nat} (ha : a < s.cfg.planeSize pl)
    (hv : (s.plane pl).read a = none) : s.memRead pl a = (s.recordFault (.uninitRead pl a)).draw := by
  simp only [State.memRead, resolveAddress_of_lt ha, hv]

/-- A read that a policy moves into the plane is the read of the cell it is moved to (R61, R63). -/
theorem State.memRead_of_resolved {s : State} {pl : Plane} {a cell : Nat}
    (h : resolveAddress s.cfg.oorPolicy (s.cfg.planeSize pl) a = some cell) (hc : cell < s.cfg.planeSize pl) :
    s.memRead pl a = s.memRead pl cell := by
  rw [State.memRead, State.memRead, h, resolveAddress_of_lt hc]

/-- Where the policy is not Fault, a read records no OutOfRangeAddress (R61). -/
theorem State.memRead_records_no_outOfRange {s : State} {pl sp : Plane} {a n : Nat} (hp : s.cfg.oorPolicy ≠ .fault)
    (h : Fault.outOfRangeAddress sp n ∈ (s.memRead pl a).2.faults) : Fault.outOfRangeAddress sp n ∈ s.faults := by
  rcases s.memRead_spec pl a with ⟨_, _, _, _, hm⟩ | ⟨cell, _, _, hm⟩ | ⟨hr, _⟩
  · rwa [hm] at h
  · rw [hm] at h
    have hor : Fault.outOfRangeAddress sp n ∈ s.faults ∨ Fault.outOfRangeAddress sp n = .uninitRead pl cell :=
      State.mem_recordFault_faults h
    exact hor.resolve_right nofun
  · exact absurd (resolveAddress_eq_none.mp hr).2 hp

/-! ### The multiplexer by its plane and its lookup (R155) -/

/-- The plane the multiplexer reads. -/
def servedPlane : VideoMode → Plane
  | .characterMode => .char
  | .pixelMode => .pix

/-- The byte the multiplexer makes of the byte `d` it read. -/
def servedByte (c : Config) (m : VideoMode) (row : BitVec 3) (d : Byte) : Byte :=
  match m with
  | .characterMode => c.glyphRom[glyphIndex d row]
  | .pixelMode => d

/-- In either mode the multiplexer is one plane read with a lookup on its byte. -/
theorem State.mux_eq (s : State) (a : BitVec 14) (row : BitVec 3) :
    s.mux a row = (servedByte s.cfg s.mode row (s.memRead (servedPlane s.mode) a.toNat).1,
      (s.memRead (servedPlane s.mode) a.toNat).2) := by
  unfold State.mux
  cases s.mode <;> rfl

/-- A serve is the BUSWR of the looked-up byte, after the plane read (R164). -/
theorem State.serve_eq (s : State) (a : BitVec 14) (row : BitVec 3) :
    s.serve a row = (s.memRead (servedPlane s.mode) a.toNat).2.busWrite
      (servedByte s.cfg s.mode row (s.memRead (servedPlane s.mode) a.toNat).1) := by
  rw [State.serve, State.mux_eq]

/-- SERVE completes with the protocol's serve. -/
theorem exec_serve (s : State) (a : BitVec 14) (row : BitVec 3) : exec (.serve a row) s = .next (s.serve a row) := rfl

/-- A serve whose read faults drives what the lookup makes of a free byte (R157, R195). -/
theorem State.serve_of_fault {s : State} {a : BitVec 14} (row : BitVec 3) {f : Fault}
    (h : s.memRead (servedPlane s.mode) a.toNat = (s.recordFault f).draw) :
    s.serve a row = { s with
      dout := servedByte s.cfg s.mode row (Config.freeByte s.inputs.draws),
      events := s.events ++ [.data (servedByte s.cfg s.mode row (Config.freeByte s.inputs.draws))],
      faults := if f ∈ s.faults then s.faults else s.faults ++ [f],
      inputs := { s.inputs with draws := s.inputs.draws + 1 } } := by
  rw [State.serve_eq, h, State.recordFault_eq]
  rfl

/-- Settles O38: either kind of read records its fault and draws, and `State.serve_of_fault` gives the serve. -/
theorem faultingServeRecordsAndDrives : Obligations.FaultingServeRecordsAndDrives := by
  unfold Obligations.FaultingServeRecordsAndDrives
  intro a row s pl f hpl hcase
  have hread : s.memRead pl a.toNat = (s.recordFault f).draw := by
    rcases hcase with ⟨ha, hp, rfl⟩ | ⟨ha, hv, rfl⟩
    · exact State.memRead_of_beyond ha hp
    · exact State.memRead_of_unwritten ha hv
  have hplane : pl = servedPlane s.mode := hpl
  subst hplane
  exact ⟨Config.freeByte s.inputs.draws, servedByte s.cfg s.mode row (Config.freeByte s.inputs.draws), rfl,
    congrArg _ (State.serve_of_fault row hread)⟩

/-- R199: a well-formed configuration gives each plane 1 to 16384 cells, as many as an address of 14 bits reaches. -/
theorem planeSize_bounds {c : Config} (h : c.WellFormed) (pl : Plane) :
    1 ≤ c.planeSize pl ∧ c.planeSize pl ≤ 16384 := by
  obtain ⟨-, -, -, hchar, hpixel, -⟩ := h
  cases pl with
  | char => exact hchar
  | pix => exact hpixel

/-- A serve that a policy moves into the plane is the serve of the cell it is moved to (R63). -/
theorem State.serve_of_resolved {s : State} (hwf : s.cfg.WellFormed) {a : BitVec 14} (row : BitVec 3) {cell : Nat}
    (h : resolveAddress s.cfg.oorPolicy (s.cfg.planeSize (servedPlane s.mode)) a.toNat = some cell)
    (hc : cell < s.cfg.planeSize (servedPlane s.mode)) : s.serve a row = s.serve (BitVec.ofNat 14 cell) row := by
  have hcell : (BitVec.ofNat 14 cell).toNat = cell := Nat.mod_eq_of_lt (hc.trans_le (planeSize_bounds hwf _).2)
  rw [State.serve_eq, State.serve_eq, hcell, State.memRead_of_resolved h hc]

/-- Settles O39: Wrap and Clamp resolve the address to a cell of the plane, and no read then is out of range. -/
theorem wrapAndClampServeAnotherCell : Obligations.WrapAndClampServeAnotherCell := by
  unfold Obligations.WrapAndClampServeAnotherCell
  intro a row s pl hwf hpl ha
  have hplane : pl = servedPlane s.mode := hpl
  subst hplane
  have hpos : 0 < s.cfg.planeSize (servedPlane s.mode) := (planeSize_bounds hwf _).1
  refine ⟨fun hp => ?_, fun hp => ?_, fun hp t ht sp n hmem => ?_⟩
  · have hr := hp ▸ resolveAddress_wrap ha
    exact congrArg _ (State.serve_of_resolved hwf row hr (Nat.mod_lt _ hpos))
  · have hr := hp ▸ resolveAddress_clamp ha
    exact congrArg _ (State.serve_of_resolved hwf row hr (Nat.sub_one_lt_of_lt hpos))
  · cases ht
    rw [State.serve_eq] at hmem
    exact State.memRead_records_no_outOfRange hp hmem

end Sys2Proof.Machine
end

section
/-! Decoding and encoding of operation words and snapshots (30_encoding R83, R90 to R95): a word is its fields in a
row, and the decoder reads the operation map. -/

namespace Sys2Proof

open Laws

/-! ### Words as fields in a row -/

theorem extractLsb'_append_low {m n : Nat} (x : BitVec m) (y : BitVec n) : (x ++ y).extractLsb' 0 n = y := by
  rw [BitVec.extractLsb'_append_eq_of_add_le (Nat.zero_add n).le, BitVec.extractLsb'_eq_self]

theorem append_eq_append_iff {m n : Nat} {x x' : BitVec m} {y y' : BitVec n} :
    x ++ y = x' ++ y' ↔ x = x' ∧ y = y' := by
  constructor
  · intro h
    have hy := congrArg (BitVec.extractLsb' 0 n) h
    rw [extractLsb'_append_low, extractLsb'_append_low] at hy
    subst hy
    exact ⟨(BitVec.append_left_inj y).mp h, rfl⟩
  · rintro ⟨rfl, rfl⟩
    rfl

/-! ### Encode and decode -/

@[simp] theorem directionOfBit_bitOfDirection (d : Direction) : directionOfBit (bitOfDirection d) = d := by
  cases d <;> rfl

@[simp] theorem videoModeOfBit_bitOfVideoMode (m : VideoMode) : videoModeOfBit (bitOfVideoMode m) = m := by
  cases m <;> rfl

@[simp] theorem planeOfBit_bitOfPlane (pl : Plane) : planeOfBit (bitOfPlane pl) = pl := by
  cases pl <;> rfl

@[simp] theorem bitOfDirection_directionOfBit (b : Bit) : bitOfDirection (directionOfBit b) = b := by
  revert b; decide

@[simp] theorem bitOfVideoMode_videoModeOfBit (b : Bit) : bitOfVideoMode (videoModeOfBit b) = b := by
  revert b; decide

@[simp] theorem bitOfPlane_planeOfBit (b : Bit) : bitOfPlane (planeOfBit b) = b := by
  revert b; decide

@[simp] theorem whenClear_eq_ok {clear : Bool} {i j : Instr} :
    whenClear clear i = .ok j ↔ clear = true ∧ i = j := by
  cases clear <;> simp [whenClear]

/-- Bits 31 to 28 of every operation's word are its operation number (R90). -/
@[simp] theorem encode_extract_op (i : Instr) : (encode i).extractLsb' 28 4 = OpField.number i := by
  cases i with
  | setdir d => exact OpField.setdir d
  | buswr v => exact OpField.buswr v
  | busrd => exact OpField.busrd
  | setctl ncs rs rw => exact OpField.setctl ncs rs rw
  | pulse => exact OpField.pulse
  | wait n => exact OpField.wait n
  | wrreg idx v => exact OpField.wrreg idx v
  | rdreg idx => exact OpField.rdreg idx
  | setmode m => exact OpField.setmode m
  | resetpat => exact OpField.resetpat
  | fillplane pl => exact OpField.fillplane pl
  | iter => exact OpField.iter
  | applyprof p => exact OpField.applyprof p
  | verifyprof p => exact OpField.verifyprof p
  | serve a row => exact OpField.serve a row

/-- The operation number picks the format, and each field of the format stands where the encoder put it. -/
theorem decodeWord_encode (i : Instr) : decodeWord (encode i) = .ok i := by
  rw [decodeWord, encode_extract_op]
  cases i <;>
    simp only [OpField.number, encode, extractLsb'_append_low, BitVec.extractLsb'_append_eq_of_le, Nat.reduceLeDiff,
      Nat.reduceSub, Nat.le_refl, Nat.sub_self] <;>
    simp

theorem decode_of_decodeWord {c : Config} {w : Word} {i : Instr} (h : decodeWord w = .ok i) :
    decode c w = if i.wellFormed c then .ok i else .error .noSuchProfile := by
  rw [decode, h]

/-- Settles O2: by `decodeWord_encode`; the configuration only bounds the profile number. -/
theorem decodeOfEncodeIsTheInstruction : Obligations.DecodeOfEncodeIsTheInstruction := by
  unfold Obligations.DecodeOfEncodeIsTheInstruction
  intro i
  refine ⟨decodeWord_encode i, fun c hwf => ?_⟩
  rw [decode_of_decodeWord (decodeWord_encode i), if_pos hwf]

/-- The decoder looks at every bit: the operation number, the zeros and the fields it read are the word again. -/
theorem encode_of_decodeWord {w : Word} {i : Instr} (h : decodeWord w = .ok i) : encode i = w := by
  unfold decodeWord at h
  split at h
  case h_16 => cases h
  all_goals
    next hop =>
    obtain ⟨-, hop⟩ := BitVec.toNat_eq_nat.mp hop
    obtain ⟨hclear, rfl⟩ := whenClear_eq_ok.mp h
    simp only [beq_iff_eq, Bool.and_eq_true] at hclear
    simp (disch := rfl) only [encode, bitOfDirection_directionOfBit, bitOfVideoMode_videoModeOfBit,
      bitOfPlane_planeOfBit, ← hop, ← hclear, BitVec.extractLsb'_append_extractLsb'_eq_extractLsb']
    exact BitVec.extractLsb'_eq_self

/-- Settles O3. -/
theorem encodeOfDecodeIsTheWord : Obligations.EncodeOfDecodeIsTheWord := by
  unfold Obligations.EncodeOfDecodeIsTheWord
  exact fun _ _ => encode_of_decodeWord

/-- Settles O1: the encoder gives each of the words, and decoding undoes it. -/
theorem specWordsDecodeAndEncode : Obligations.SpecWordsDecodeAndEncode := by
  unfold Obligations.SpecWordsDecodeAndEncode
  intro p hp
  suffices henc : encode p.1 = p.2 from ⟨henc, henc ▸ decodeWord_encode p.1⟩
  revert p
  decide

/-! ### The operation map (R91, R92) -/

/-- A row whose format has its fields in the low `l` bits accepts a word with its operation number `k` when the bits
between are zero. -/
theorem masked_beq_eq (l n : Nat) {k : BitVec 4} {w : BitVec (4 + n + l)} (hop : w.extractLsb' (l + n) 4 = k) :
    (w &&& (BitVec.allOnes 4 ++ BitVec.allOnes n ++ 0#l) == k ++ 0#n ++ 0#l) = (w.extractLsb' l n == 0#n) := by
  have hw : w = k ++ w.extractLsb' l n ++ w.extractLsb' 0 l := by
    rw [← hop, BitVec.extractLsb'_append_extractLsb'_eq_extractLsb' rfl,
      BitVec.extractLsb'_append_extractLsb'_eq_extractLsb' (Nat.zero_add l).symm, BitVec.extractLsb'_eq_self]
  conv_lhs => rw [hw]
  rw [Bool.eq_iff_iff, beq_iff_eq, beq_iff_eq]
  simp only [BitVec.and_append, BitVec.and_allOnes, BitVec.and_zero, append_eq_append_iff, true_and, and_true]

/-- The same for a format with `m` more fixed bits below its field: RDREG's. -/
theorem masked_beq_eq_of_low (m l n : Nat) {k : BitVec 4} {w : BitVec (4 + n + l + m)}
    (hop : w.extractLsb' (m + l + n) 4 = k) :
    (w &&& (BitVec.allOnes 4 ++ BitVec.allOnes n ++ 0#l ++ BitVec.allOnes m) == k ++ 0#n ++ 0#l ++ 0#m) =
      (w.extractLsb' (m + l) n == 0#n && w.extractLsb' 0 m == 0#m) := by
  have hw : w = k ++ w.extractLsb' (m + l) n ++ w.extractLsb' m l ++ w.extractLsb' 0 m := by
    rw [← hop, BitVec.extractLsb'_append_extractLsb'_eq_extractLsb' rfl,
      BitVec.extractLsb'_append_extractLsb'_eq_extractLsb' rfl,
      BitVec.extractLsb'_append_extractLsb'_eq_extractLsb' (Nat.zero_add m).symm, BitVec.extractLsb'_eq_self]
  conv_lhs => rw [hw]
  rw [Bool.eq_iff_iff, Bool.and_eq_true, beq_iff_eq, beq_iff_eq, beq_iff_eq]
  simp only [BitVec.and_append, BitVec.and_allOnes, BitVec.and_zero, append_eq_append_iff, true_and, and_true]

/-- `w` has the operation number of row `r`, and `d` is what the row alone makes of it: an operation of the row's name
if the row accepts the word. -/
def OpcodeRow.DecodesTo (r : OpcodeRow) (w : Word) (d : Except Reserved Instr) : Prop :=
  w.extractLsb' 28 4 = r.value.extractLsb' 28 4 ∧ ∃ i, mnemonicOf i = r.mnemonic ∧ d = whenClear (r.accepts w) i

/-- It is enough that row `n` accepts exactly the words of its operation number with the zeros the decoder checks. -/
theorem exists_row_decodesTo {w : Word} {i : Instr} {clear : Bool} (n : Fin 15)
    (hop : (w.extractLsb' 28 4).toNat = (opcodeRows[n].value.extractLsb' 28 4).toNat)
    (hname : mnemonicOf i = opcodeRows[n].mnemonic)
    (hclear : w.extractLsb' 28 4 = opcodeRows[n].value.extractLsb' 28 4 → opcodeRows[n].accepts w = clear) :
    ∃ r ∈ opcodeRows, r.DecodesTo w (whenClear clear i) := by
  replace hop := BitVec.eq_of_toNat_eq hop
  exact ⟨opcodeRows[n], List.getElem_mem _, hop, i, hname, by rw [hclear hop]⟩

/-- Everything the decoder can do: with operation number 0 the word is reserved, and with any other it does what the row
of that number does. -/
theorem decodeWord_cases (w : Word) :
    (w.extractLsb' 28 4 = 0#4 ∧ decodeWord w = .error .opZero) ∨
    ∃ r ∈ opcodeRows, r.DecodesTo w (decodeWord w) := by
  unfold decodeWord
  split
  case h_16 =>
    have hzero : (w.extractLsb' 28 4).toNat = 0 := by grind
    exact .inl ⟨BitVec.eq_of_toNat_eq hzero, rfl⟩
  all_goals right
  case h_1 hop => exact exists_row_decodesTo 0 hop rfl (masked_beq_eq 1 27)
  case h_2 hop => exact exists_row_decodesTo 1 hop rfl (masked_beq_eq 8 20)
  case h_3 hop => exact exists_row_decodesTo 2 hop rfl (masked_beq_eq 0 28)
  case h_4 hop => exact exists_row_decodesTo 3 hop rfl (masked_beq_eq 3 25)
  case h_5 hop => exact exists_row_decodesTo 4 hop rfl (masked_beq_eq 0 28)
  case h_6 hop => exact exists_row_decodesTo 5 hop rfl (masked_beq_eq 16 12)
  case h_7 hop => exact exists_row_decodesTo 6 hop rfl (masked_beq_eq 13 15)
  case h_8 hop => exact exists_row_decodesTo 7 hop rfl (masked_beq_eq_of_low 8 5 15)
  case h_9 hop => exact exists_row_decodesTo 8 hop rfl (masked_beq_eq 1 27)
  case h_10 hop => exact exists_row_decodesTo 9 hop rfl (masked_beq_eq 0 28)
  case h_11 hop => exact exists_row_decodesTo 10 hop rfl (masked_beq_eq 1 27)
  case h_12 hop => exact exists_row_decodesTo 11 hop rfl (masked_beq_eq 0 28)
  case h_13 hop => exact exists_row_decodesTo 12 hop rfl (masked_beq_eq 8 20)
  case h_14 hop => exact exists_row_decodesTo 13 hop rfl (masked_beq_eq 8 20)
  case h_15 hop => exact exists_row_decodesTo 14 hop rfl (masked_beq_eq 17 11)

/-- A row accepts only words with its operation number, which is not 0: every mask has bits 31 to 28. -/
theorem extract_op_of_accepts {r : OpcodeRow} {w : Word} (hr : r ∈ opcodeRows) (h : r.accepts w = true) :
    w.extractLsb' 28 4 = r.value.extractLsb' 28 4 ∧ w.extractLsb' 28 4 ≠ 0#4 := by
  have hrow : ∀ r ∈ opcodeRows, r.mask.extractLsb' 28 4 = BitVec.allOnes 4 ∧ r.value.extractLsb' 28 4 ≠ 0#4 := by
    decide
  obtain ⟨hmask, hne⟩ := hrow r hr
  have hop : w.extractLsb' 28 4 = r.value.extractLsb' 28 4 := by
    rw [← eq_of_beq h, BitVec.extractLsb'_and, hmask, BitVec.and_allOnes]
  exact ⟨hop, hop ▸ hne⟩

/-- No two rows have one operation number (R92). -/
theorem opcodeRows_op_injective : ∀ r ∈ opcodeRows, ∀ r' ∈ opcodeRows,
    r.value.extractLsb' 28 4 = r'.value.extractLsb' 28 4 → r = r' := by
  decide

theorem decodeWord_of_accepts {r : OpcodeRow} {w : Word} (hr : r ∈ opcodeRows) (h : r.accepts w = true) :
    ∃ i, decodeWord w = .ok i ∧ r.mnemonic = mnemonicOf i := by
  obtain ⟨hop, hne⟩ := extract_op_of_accepts hr h
  obtain ⟨hzero, -⟩ | ⟨r', hr', hop', i, hi, hd⟩ := decodeWord_cases w
  · exact absurd hzero hne
  · obtain rfl := opcodeRows_op_injective r hr r' hr' (hop.symm.trans hop')
    exact ⟨i, hd.trans (whenClear_eq_ok.mpr ⟨h, rfl⟩), hi.symm⟩

theorem accepts_of_decodeWord {w : Word} {i : Instr} (h : decodeWord w = .ok i) :
    ∃ r ∈ opcodeRows, r.accepts w = true := by
  obtain ⟨-, hd⟩ | ⟨r, hr, -, j, -, hd⟩ := decodeWord_cases w
  · rw [hd] at h
    cases h
  · exact ⟨r, hr, (whenClear_eq_ok.mp (hd.symm.trans h)).1⟩

/-- Settles O4: a row that accepts the word is the row of its operation number, which the decoder reads. -/
theorem decoderAcceptsExactlyTheTableRows : Obligations.DecoderAcceptsExactlyTheTableRows := by
  unfold Obligations.DecoderAcceptsExactlyTheTableRows
  intro w
  refine ⟨⟨fun ⟨i, hi⟩ => accepts_of_decodeWord hi, fun ⟨r, hr, h⟩ => ?_⟩, fun i hi r hr h => ?_⟩
  · obtain ⟨i, hi, -⟩ := decodeWord_of_accepts hr h
    exact ⟨i, hi⟩
  · obtain ⟨j, hj, hname⟩ := decodeWord_of_accepts hr h
    cases hi.symm.trans hj
    exact hname

/-! ### Snapshots (R81, R83) -/

end Sys2Proof

namespace Sys2Proof.Machine

/-- A snapshot is its fields in a row. -/
theorem snapshotOf_eq_append (a : BitVec 14) (row : BitVec 3) : snapshotOf a row = 0#15 ++ row ++ a := by
  refine BitVec.eq_of_getLsbD_eq fun j hj => ?_
  simp only [snapshotOf, BitVec.getLsbD_append, BitVec.getLsbD_or, BitVec.getLsbD_shiftLeft, BitVec.getLsbD_setWidth]
  rcases lt_or_ge j 14 with hlow | hhigh
  · simp [hlow, hj]
  · have hrow : row.getLsbD (j - 14) = true → j - 14 < 3 := BitVec.lt_of_getLsbD
    simpa [hhigh.not_gt, hj, show j - 14 < 32 by omega, a.getLsbD_of_ge j hhigh] using hrow

/-- Settles O46: the fields of `snapshotOf_eq_append` are where the decoder of a snapshot reads them. -/
theorem snapshotOfAPairDecodesToIt : Obligations.SnapshotOfAPairDecodesToIt := by
  unfold Obligations.SnapshotOfAPairDecodesToIt
  refine ⟨fun a row => ⟨rfl, ?_⟩, by decide⟩
  simp only [snapshotAddr, snapshotRow, snapshotOf_eq_append, extractLsb'_append_low,
    BitVec.extractLsb'_append_eq_of_le, Nat.reduceLeDiff, Nat.reduceSub, Nat.le_refl, Nat.sub_self,
    BitVec.extractLsb'_eq_self, and_self]

end Sys2Proof.Machine
end

section
/-! What an operation or a step that answers no next state answers instead (30_encoding R95; 60_exceptions R199), and
what a step runs (R90, R96; 44_profile_sequencer R183, R185). -/

namespace Sys2Proof.Machine

/-! ### Operations -/

/-- The outcomes an operation and the sequencer have under a configuration with `nprof` profiles: a next state, or the
refusal of a profile number that is not below `nprof` (R95, R199). -/
inductive Completes (nprof : Nat) : Result → Prop where
  | next (t : State) : Completes nprof (.next t)
  | noSuchProfile (p : BitVec 8) (hp : nprof ≤ p.toNat) : Completes nprof (.refused (.noSuchProfile p))

theorem profileAt_of_lt {c : Config} {p : Nat} (h : p < c.nprof) : ∃ prof, profileAt c p = some prof :=
  Option.isSome_iff_exists.mp ((profileAt_isSome c p).mpr h)

theorem profileAt_of_le {c : Config} {p : Nat} (h : c.nprof ≤ p) : profileAt c p = none :=
  List.getElem?_eq_none h

/-- Settles O48: there is no such profile to apply. -/
theorem unknownProfileIsRefused : Obligations.UnknownProfileIsRefused := by
  unfold Obligations.UnknownProfileIsRefused
  intro p s hp
  constructor
  · rw [exec, execApplyprof, profileAt_of_le hp]
  · rw [exec, execVerifyprof, profileAt_of_le hp]

/-- Only a profile number can make an operation ill-formed (R93). -/
theorem wellFormed_eq_false {c : Config} {i : Instr} (h : i.wellFormed c = false) :
    ∃ p, (i = .applyprof p ∨ i = .verifyprof p) ∧ c.nprof ≤ p.toNat := by
  cases i with
  | applyprof p => exact ⟨p, .inl rfl, Nat.le_of_not_lt (of_decide_eq_false h)⟩
  | verifyprof p => exact ⟨p, .inr rfl, Nat.le_of_not_lt (of_decide_eq_false h)⟩
  | _ => cases h

/-- Of the operations only the two with a profile number can be refused, and a well-formed one finds its profile. -/
theorem exec_of_wellFormed {i : Instr} {s : State} (h : i.wellFormed s.cfg = true) : ∃ t, exec i s = .next t := by
  cases i with
  | applyprof p =>
    obtain ⟨prof, hprof⟩ := profileAt_of_lt (of_decide_eq_true h)
    exact ⟨s.applyProfile prof, by rw [exec, execApplyprof, hprof]⟩
  | verifyprof p =>
    obtain ⟨prof, hprof⟩ := profileAt_of_lt (of_decide_eq_true h)
    exact ⟨s.verifyProfile prof, by rw [exec, execVerifyprof, hprof]⟩
  | _ => exact ⟨_, rfl⟩

theorem exec_completes (i : Instr) (s : State) : Completes s.cfg.nprof (exec i s) := by
  cases h : i.wellFormed s.cfg with
  | true =>
    obtain ⟨t, ht⟩ := exec_of_wellFormed h
    rw [ht]
    exact .next t
  | false =>
    obtain ⟨p, hi, hp⟩ := wellFormed_eq_false h
    obtain ⟨happly, hverify⟩ := unknownProfileIsRefused p s hp
    rcases hi with rfl | rfl
    · rw [happly]
      exact .noSuchProfile p hp
    · rw [hverify]
      exact .noSuchProfile p hp

/-! ### The sequencer -/

theorem Completes.thenDriveBus {n : Nat} {r : Result} (h : Completes n r) : Completes n (thenDriveBus r) := by
  cases h with
  | next t => exact .next _
  | noSuchProfile p hp => exact .noSuchProfile p hp

theorem poll_completes (s : State) (token : Option Command) : Completes s.cfg.nprof (poll s token) := by
  cases token with
  | none => exact .next s
  | some c =>
    cases c with
    | setMode m => exact .next _
    | resetPattern => exact .next _
    | fill pl contents => exact .next _
    | applyProfile p => exact (exec_completes (.applyprof p) s).thenDriveBus
    | verifyProfile p => exact (exec_completes (.verifyprof p) s).thenDriveBus

/-- Reading the schedule leaves the configuration as it was. -/
theorem State.takePass_cfg (s : State) : s.takePass.2.cfg = s.cfg := by
  obtain ⟨p, i, h, -⟩ := s.takePass_spec
  rw [h]
  rfl

theorem loopPass_completes (s : State) : Completes s.cfg.nprof (loopPass s) := by
  unfold loopPass
  rw [← s.takePass_cfg]
  split
  · exact .next _
  · exact poll_completes _ _
  · exact poll_completes _ _

/-- Startup's profile is there under a well-formed configuration (R199). -/
theorem startUp_completes {s : State} (hwf : s.cfg.WellFormed) : Completes s.cfg.nprof (startUp s) := by
  obtain ⟨-, -, -, -, -, hinitial⟩ := hwf
  obtain ⟨prof, hprof⟩ := profileAt_of_lt hinitial
  rw [startUp, hprof]
  exact .next _

theorem runSequencer_completes {s : State} (hwf : s.cfg.WellFormed) : Completes s.cfg.nprof (runSequencer s) := by
  unfold runSequencer
  split
  · exact startUp_completes hwf
  · exact loopPass_completes s

/-! ### Steps -/

section
variable {s : State} (hwf : s.cfg.WellFormed)
include hwf

theorem step_of_decode_ok {w : Word} {rest : List Word} {i : Instr} (hw : s.inputs.ops = w :: rest)
    (hd : decode s.cfg w = .ok i) : step s = exec i (s.setInputs { s.inputs with ops := rest }) := by
  simp only [step, (configProblem_eq_none _).mpr hwf, s.takeOp_of_cons hw, hd]

theorem step_of_decode_error {w : Word} {rest : List Word} {why : Reserved} (hw : s.inputs.ops = w :: rest)
    (hd : decode s.cfg w = .error why) : step s = .refused (.reservedWord why w) := by
  simp only [step, (configProblem_eq_none _).mpr hwf, s.takeOp_of_cons hw, hd]

theorem step_of_no_op (hw : s.inputs.ops = []) : step s = runSequencer s := by
  simp only [step, (configProblem_eq_none _).mpr hwf, s.takeOp_of_nil hw]

/-- In the loop, with no word queued, a step is one pass. -/
theorem step_of_loop (hw : s.inputs.ops = []) (hq : s.seq = .loop) : step s = loopPass s := by
  rw [step_of_no_op hwf hw, runSequencer, hq]

end

theorem step_of_configProblem {s : State} {p : ConfigProblem} (h : configProblem s.cfg = some p) :
    step s = .refused (.illFormedConfig p) := by
  simp only [step, h]

/-- Settles O6: by the two equations of a step, and because `withFetchWord` queues the word itself. -/
theorem stepRunsTheDecodedInstruction : Obligations.StepRunsTheDecodedInstruction := by
  unfold Obligations.StepRunsTheDecodedInstruction
  refine ⟨fun s w rest i hwf hw hd => step_of_decode_ok hwf hw hd, fun s i hwf hi => ?_⟩
  have hword : BitVec.ofNat 32 ((encode i).toNat % 2 ^ 32) = encode i := by
    rw [Nat.mod_eq_of_lt (encode i).isLt, BitVec.ofNat_toNat, BitVec.setWidth_eq]
  have hops : (s.withFetchWord 32 (encode i).toNat).inputs.ops = encode i :: s.inputs.ops :=
    congrArg (· :: s.inputs.ops) hword
  have hd := (decodeOfEncodeIsTheInstruction i).2 s.cfg hi
  exact step_of_decode_ok (s := s.withFetchWord 32 (encode i).toNat) hwf hops hd

/-- Everything a step can be: the refusal of an ill-formed configuration or of a reserved word, or the outcome of an
operation or of the sequencer. -/
theorem step_completes_or_refused (s : State) :
    (∃ why, step s = .refused (.illFormedConfig why) ∧ ¬ s.cfg.WellFormed) ∨
    (∃ why w, step s = .refused (.reservedWord why w)) ∨ Completes s.cfg.nprof (step s) := by
  cases hc : configProblem s.cfg with
  | some why =>
    have hill : ¬ s.cfg.WellFormed := fun hwf => by simp [(configProblem_eq_none _).mpr hwf] at hc
    exact .inl ⟨why, step_of_configProblem hc, hill⟩
  | none =>
    have hwf := (configProblem_eq_none _).mp hc
    cases hw : s.inputs.ops with
    | nil => exact .inr (.inr (step_of_no_op hwf hw ▸ runSequencer_completes hwf))
    | cons w rest =>
      cases hd : decode s.cfg w with
      | ok i =>
        rw [step_of_decode_ok hwf hw hd]
        exact .inr (.inr (exec_completes i (s.setInputs { s.inputs with ops := rest })))
      | error why => exact .inr (.inl ⟨why, w, step_of_decode_error hwf hw hd⟩)

/-- Settles O16: by `exec_of_wellFormed`, and by what a step can be. -/
theorem everyOperationCompletes : Obligations.EveryOperationCompletes := by
  unfold Obligations.EveryOperationCompletes
  refine ⟨fun i s => exec_of_wellFormed, fun s f h => ?_, fun s r h => ?_⟩
  · rcases step_completes_or_refused s with ⟨_, hr, _⟩ | ⟨_, _, hr⟩ | hc
    · cases h.symm.trans hr
    · cases h.symm.trans hr
    · rw [h] at hc
      cases hc
  · rcases step_completes_or_refused s with ⟨why, hr, hill⟩ | ⟨why, w, hr⟩ | hc
    · cases h.symm.trans hr
      exact .inr (.inr ⟨why, rfl, hill⟩)
    · cases h.symm.trans hr
      exact .inl ⟨why, w, rfl⟩
    · rw [h] at hc
      cases hc with
      | noSuchProfile p hp => exact .inr (.inl ⟨p, rfl, hp⟩)

/-! ### Reserved words -/

theorem decodeWord_error_iff (w : Word) :
    (∃ why, decodeWord w = .error why) ↔ ∀ r ∈ opcodeRows, w &&& r.mask ≠ r.value := by
  have hrow (r : OpcodeRow) : w &&& r.mask ≠ r.value ↔ ¬ r.accepts w = true := by
    rw [OpcodeRow.accepts, beq_iff_eq]
  simp only [hrow]
  cases hd : decodeWord w with
  | ok i =>
    obtain ⟨r, hr, h⟩ := accepts_of_decodeWord hd
    exact ⟨nofun, fun hnone => absurd h (hnone r hr)⟩
  | error why =>
    refine ⟨fun _ r hr h => ?_, fun _ => ⟨why, rfl⟩⟩
    obtain ⟨i, hi, -⟩ := decodeWord_of_accepts hr h
    cases hd.symm.trans hi

/-- The ill-formed operations by their words: the profile number is the low byte (R91, R93). -/
theorem wellFormed_eq_false_iff (c : Config) (i : Instr) :
    i.wellFormed c = false ↔
      ((encode i).extractLsb' 28 4 = 0xD#4 ∨ (encode i).extractLsb' 28 4 = 0xE#4) ∧
        c.nprof ≤ ((encode i).extractLsb' 0 8).toNat := by
  rw [encode_extract_op]
  cases i with
  | applyprof p =>
    have hlow : (encode (.applyprof p)).extractLsb' 0 8 = p := extractLsb'_append_low _ p
    simp [Instr.wellFormed, Laws.OpField.number, hlow]
  | verifyprof p =>
    have hlow : (encode (.verifyprof p)).extractLsb' 0 8 = p := extractLsb'_append_low _ p
    simp [Instr.wellFormed, Laws.OpField.number, hlow]
  | _ => simp [Instr.wellFormed, Laws.OpField.number]

theorem decode_error_iff_of_ok {c : Config} {w : Word} {i : Instr} (hd : decodeWord w = .ok i) :
    (∃ why, decode c w = .error why) ↔ i.wellFormed c = false := by
  rw [decode_of_decodeWord hd]
  cases i.wellFormed c <;> simp

/-- The reserved words of R95. -/
theorem decode_error_iff (c : Config) (w : Word) :
    (∃ why, decode c w = .error why) ↔
      w.extractLsb' 28 4 = 0#4 ∨ (∀ r ∈ opcodeRows, w &&& r.mask ≠ r.value) ∨
      ((w.extractLsb' 28 4 = 0xD#4 ∨ w.extractLsb' 28 4 = 0xE#4) ∧ c.nprof ≤ (w.extractLsb' 0 8).toNat) := by
  cases hd : decodeWord w with
  | error why =>
    have hnone := (decodeWord_error_iff w).mp ⟨why, hd⟩
    exact iff_of_true ⟨why, by rw [decode, hd]⟩ (.inr (.inl hnone))
  | ok i =>
    have hrow : ¬ ∀ r ∈ opcodeRows, w &&& r.mask ≠ r.value := by
      rw [← decodeWord_error_iff, hd]
      exact nofun
    obtain ⟨r, hr, haccepts⟩ := accepts_of_decodeWord hd
    have hop := (extract_op_of_accepts hr haccepts).2
    rw [decode_error_iff_of_ok hd, wellFormed_eq_false_iff, encode_of_decodeWord hd]
    simp only [hop, hrow, false_or]

/-- No operation is refused as a reserved word: a step refuses one exactly when the decoder answers none. -/
theorem step_reservedWord_iff {s : State} {w : Word} {rest : List Word} (hwf : s.cfg.WellFormed)
    (hw : s.inputs.ops = w :: rest) :
    (∃ why, step s = .refused (.reservedWord why w)) ↔ ∃ why, decode s.cfg w = .error why := by
  cases hd : decode s.cfg w with
  | error why => exact iff_of_true ⟨why, step_of_decode_error hwf hw hd⟩ ⟨why, rfl⟩
  | ok i =>
    refine iff_of_false (fun ⟨why, h⟩ => ?_) nofun
    have hc := exec_completes i (s.setInputs { s.inputs with ops := rest })
    rw [← step_of_decode_ok hwf hw hd, h] at hc
    cases hc

/-- Settles O5: by `decode_error_iff`, for the decoder and for the step that asks it. -/
theorem reservedWordsAreExactlyTheRefusedOnes : Obligations.ReservedWordsAreExactlyTheRefusedOnes := by
  unfold Obligations.ReservedWordsAreExactlyTheRefusedOnes
  refine ⟨decode_error_iff, fun s w rest hwf hw => ?_, fun c => ?_⟩
  · exact (step_reservedWord_iff hwf hw).trans (decode_error_iff s.cfg w)
  · exact (decodeOfEncodeIsTheInstruction (.wait 0#16)).2 c rfl

/-! ### The passes of the loop -/

theorem State.takePass_of_cons {s : State} {p : Pass} {rest : List Pass} (h : s.inputs.passes = p :: rest) :
    s.takePass = (p, s.setInputs { s.inputs with passes := rest }) := by
  unfold State.takePass; rw [h]

/-- A character with no entry in CMD_DECODE (R99). -/
theorem commandOfCharacter_of_forall_ne {c : Config} {b : Byte} (h : ∀ e ∈ c.cmdTable, e.1 ≠ b) :
    commandOfCharacter c b = none := by
  simpa [commandOfCharacter] using h

/-- A character stands for the command of its first entry (R99). -/
theorem commandOfCharacter_of_first {c : Config} {b : Byte} {cmd : Command} {before after : List (Byte × Command)}
    (ht : c.cmdTable = before ++ (b, cmd) :: after) (h : ∀ e ∈ before, e.1 ≠ b) :
    commandOfCharacter c b = some cmd := by
  have hbefore : before.find? (fun e => e.1 = b) = none := by simpa using h
  simp [commandOfCharacter, ht, hbefore]

section
variable {s : State} (hwf : s.cfg.WellFormed) (hw : s.inputs.ops = []) (hq : s.seq = .loop) {rest : List Pass}
include hwf hw hq

theorem step_of_iter (hp : s.inputs.passes = .iter :: rest) :
    step s = exec .iter (s.setInputs { s.inputs with passes := rest }) := by
  rw [step_of_loop hwf hw hq, loopPass, s.takePass_of_cons hp]
  rfl

theorem step_of_poll {token : Option Command} (hp : s.inputs.passes = .poll token :: rest) :
    step s = poll (s.setInputs { s.inputs with passes := rest }) token := by
  rw [step_of_loop hwf hw hq, loopPass, s.takePass_of_cons hp]

theorem step_of_character {b : Byte} (hp : s.inputs.passes = .character b :: rest) :
    step s = poll (s.setInputs { s.inputs with passes := rest }) (commandOfCharacter s.cfg b) := by
  rw [step_of_loop hwf hw hq, loopPass, s.takePass_of_cons hp]

end

/-- Settles O53: each kind of pass by its equation; a character's poll is the poll of the command it stands for. -/
theorem loopPassFollowsTheSchedule : Obligations.LoopPassFollowsTheSchedule := by
  unfold Obligations.LoopPassFollowsTheSchedule
  intro s p rest hwf hw hq hp
  refine ⟨?_, ?_, ?_, ?_⟩
  · rintro rfl
    exact step_of_iter hwf hw hq hp
  · rintro rfl
    exact step_of_poll hwf hw hq hp
  · rintro b rfl hnone
    rw [step_of_character hwf hw hq hp, commandOfCharacter_of_forall_ne hnone]
    rfl
  · rintro b cmd before after rfl htable hbefore
    rw [step_of_character hwf hw hq hp, commandOfCharacter_of_first htable hbefore]
    exact (step_of_poll (s := s.setInputs { s.inputs with passes := .poll (some cmd) :: rest }) hwf hw hq rfl).symm

end Sys2Proof.Machine
end

section
/-! E is never high with the lines in an address read (30_encoding R86). -/

namespace Sys2Proof.Machine

/-! ### Event sequences -/

/-- At no prefix of `evs`, from the lines `v`, is an address read strobed. -/
def LineView.NeverStrobes (v : LineView) (evs : List LineEvent) : Prop :=
  ∀ done, done <+: evs → ¬ ((v.run done).e = 1#1 ∧ (v.run done).addressRead = true)

theorem LineView.neverStrobes_nil (v : LineView) : v.NeverStrobes [] ↔ ¬ (v.e = 1#1 ∧ v.addressRead = true) := by
  simp [LineView.NeverStrobes, LineView.run]

/-- One event at a time. -/
theorem LineView.neverStrobes_cons (v : LineView) (ev : LineEvent) (evs : List LineEvent) :
    v.NeverStrobes (ev :: evs) ↔ ¬ (v.e = 1#1 ∧ v.addressRead = true) ∧ (v.after ev).NeverStrobes evs := by
  constructor
  · intro h
    exact ⟨h [] List.nil_prefix, fun done hd => h (ev :: done) ((List.prefix_cons_inj ev).mpr hd)⟩
  · rintro ⟨hnow, hlater⟩ done hd
    rcases List.prefix_cons_iff.mp hd with rfl | ⟨done', rfl, hd'⟩
    · exact hnow
    · exact hlater done' hd'

theorem LineView.NeverStrobes.append {v : LineView} {xs ys : List LineEvent} (hx : v.NeverStrobes xs)
    (hy : (v.run xs).NeverStrobes ys) : v.NeverStrobes (xs ++ ys) := by
  induction xs generalizing v with
  | nil => exact hy
  | cons ev xs ih =>
    obtain ⟨hnow, hlater⟩ := (v.neverStrobes_cons ev xs).mp hx
    exact (v.neverStrobes_cons ev (xs ++ ys)).mpr ⟨hnow, ih hlater hy⟩

/-! ### Register accesses -/

/-- A relation that composes and holds over each part of an operation that runs register accesses. -/
structure AccessClosed (R : State → State → Prop) : Prop where
  refl : ∀ s : State, R s s
  trans : ∀ {s t u : State}, R s t → R t u → R s u
  write : ∀ (s : State) (idx : BitVec 5) (v : Byte), R s (s.writeRegister idx v)
  read : ∀ (s : State) (idx : BitVec 5), R s (s.readRegister idx).2
  verify : ∀ (s : State) (mask : BitVec 16), R s (s.setVerify mask)

section
variable {R : State → State → Prop} (hR : AccessClosed R)
include hR

theorem AccessClosed.applyProfile (s : State) (prof : Profile) : R s (s.applyProfile prof) :=
  List.foldlRecOn (motive := R s) _ _ (hR.refl s) fun t h r _ =>
    hR.trans h (hR.write t (profileRegIndex r) prof[r])

theorem AccessClosed.readBack (s : State) (prof : Profile) (rs : List (Fin 16)) (mask : BitVec 16) :
    R s (s.readBack prof rs mask).2 := by
  induction rs generalizing s mask with
  | nil => exact hR.refl s
  | cons r rs ih => exact hR.trans (hR.read s (profileRegIndex r)) (ih _ _)

theorem AccessClosed.exec {i : Instr} {s t : State} (hi : instrRunsAccess i = true) (h : exec i s = .next t) :
    R s t := by
  cases i with
  | wrreg idx v => cases h; exact hR.write s idx v
  | rdreg idx => cases h; exact hR.read s idx
  | applyprof p =>
    obtain ⟨prof, -, rfl⟩ := execApplyprof_next h
    exact hR.applyProfile s prof
  | verifyprof p =>
    obtain ⟨prof, -, rfl⟩ := execVerifyprof_next h
    exact hR.trans (hR.applyProfile s prof) (hR.trans (hR.readBack _ prof (readableRegs s.cfg) 0#16) (hR.verify _ _))
  | _ => cases hi

end

/-! ### Operations -/

/-- From E low, the events from `s` to `t` never strobe an address read, and E is low again. -/
def Unstrobed (s t : State) : Prop :=
  s.e = 0#1 → t.e = 0#1 ∧ ∃ evs, t.events = s.events ++ evs ∧ s.lines.run evs = t.lines ∧ s.lines.NeverStrobes evs

theorem Unstrobed.trans {s t u : State} (h : Unstrobed s t) (k : Unstrobed t u) : Unstrobed s u := by
  intro he
  obtain ⟨het, xs, hx, hxl, hxs⟩ := h he
  obtain ⟨heu, ys, hy, hyl, hys⟩ := k het
  refine ⟨heu, xs ++ ys, by rw [hy, hx, List.append_assoc], by rw [LineView.run_append, hxl, hyl], hxs.append ?_⟩
  rwa [hxl]

/-- Whatever leaves the history and the lines alone. -/
theorem Unstrobed.of_eq {s t : State} (he : t.events = s.events) (hl : t.lines = s.lines) : Unstrobed s t := by
  intro hlow
  have hte : t.e = s.e := congrArg LineView.e hl
  refine ⟨hte.trans hlow, [], by rw [he, List.append_nil], hl.symm, ?_⟩
  rw [LineView.neverStrobes_nil]
  simp [State.lines, hlow]

/-- A write strobes with RW low (R121). -/
theorem State.writeRegister_unstrobed (s : State) (idx : BitVec 5) (v : Byte) :
    Unstrobed s (s.writeRegister idx v) := by
  intro he
  rw [State.writeRegister_eq]
  refine ⟨rfl, _, rfl, rfl, ?_⟩
  simp [LineView.neverStrobes_cons, LineView.neverStrobes_nil, LineView.after, LineView.addressRead, State.lines, he]

/-- A read strobes with RW low in its address phase and with RS high in its data phase (R126). -/
theorem State.readRegister_unstrobed (s : State) (idx : BitVec 5) : Unstrobed s (s.readRegister idx).2 := by
  intro he
  rw [State.readRegister_eq]
  refine ⟨rfl, _, rfl, rfl, ?_⟩
  simp [LineView.neverStrobes_cons, LineView.neverStrobes_nil, LineView.after, LineView.addressRead, State.lines, he]

theorem accessClosed_unstrobed : AccessClosed Unstrobed where
  refl _ := .of_eq rfl rfl
  trans := Unstrobed.trans
  write := State.writeRegister_unstrobed
  read := State.readRegister_unstrobed
  verify _ _ := .of_eq rfl rfl

/-- Of the other operations only PULSE moves E. -/
theorem exec_unstrobed {i : Instr} {s t : State} (hi : i ≠ .pulse) (h : exec i s = .next t) : Unstrobed s t := by
  cases exec_cases h with
  | access _ _ ha => exact accessClosed_unstrobed.exec ha h
  | verifyprof => exact accessClosed_unstrobed.exec rfl h
  | pulse => exact absurd rfl hi
  | setdir | buswr | busrd | setctl | wait | sample | respond | serve =>
    intro he
    refine ⟨he, _, rfl, rfl, ?_⟩
    simp [LineView.neverStrobes_cons, LineView.neverStrobes_nil, LineView.after, State.lines, he]
  | setmode | resetpat => exact .of_eq rfl rfl
  | fillplane pl => cases pl <;> exact .of_eq rfl rfl

/-- Settles O27: by `exec_unstrobed`, of which the statement is one prefix. -/
theorem addressReadIsNeverStrobed : Obligations.AddressReadIsNeverStrobed := by
  unfold Obligations.AddressReadIsNeverStrobed
  rintro i s t evs done rest he hi hx hevs rfl
  obtain ⟨-, evs, hevs', -, hnever⟩ := exec_unstrobed hi hx he
  have hprefix : done <+: evs := ⟨rest, List.append_cancel_left (hevs.symm.trans hevs')⟩
  exact hnever done hprefix

end Sys2Proof.Machine
end

section
/-! What the bus transceiver's operations do and leave unchanged (40_transceiver R106 to R112). -/

namespace Sys2Proof.Machine

/-! ### The driven byte (R28) -/

theorem State.drivenByte_of_output {s : State} (h : s.dir = .output) : s.drivenByte = some s.dout := by
  rw [State.drivenByte, h]

theorem State.drivenByte_of_input {s : State} (h : s.dir = .input) : s.drivenByte = none := by
  rw [State.drivenByte, h]

/-! ### SETDIR and BUSWR -/

theorem exec_setdir (d : Direction) (s : State) : exec (.setdir d) s = .next (s.setDirection d) := rfl

theorem exec_buswr (v : Byte) (s : State) : exec (.buswr v) s = .next (s.busWrite v) := rfl

/-- The word of BUSWR is its operation number with the byte in the low bits (R91). -/
theorem encode_buswr (v : Byte) : encode (.buswr v) = 0x20000000#32 ||| v.setWidth 32 := by
  rw [encode, BitVec.append_def, BitVec.setWidth'_eq]
  rfl

/-- Settles O18: the step sets DIR alone, so DOUT, which the lines may carry, stands. -/
theorem setdirResult : Obligations.SetdirResult := by
  unfold Obligations.SetdirResult
  refine ⟨exec_setdir, fun s t h => ?_, fun s t h => ?_, by decide, by decide⟩
  · cases (exec_setdir .output s).symm.trans h
    exact State.drivenByte_of_output (s.setDirection_dir .output)
  · cases (exec_setdir .input s).symm.trans h
    exact State.drivenByte_of_input (s.setDirection_dir .input)

/-- Settles O19: the step sets DOUT alone, so DIR decides whether the lines carry it. -/
theorem buswrResult : Obligations.BuswrResult := by
  unfold Obligations.BuswrResult
  refine ⟨exec_buswr, fun v s t h => ?_, encode_buswr⟩
  cases (exec_buswr v s).symm.trans h
  cases hd : s.dir with
  | output => exact State.drivenByte_of_output ((s.busWrite_dir v).trans hd)
  | input => exact State.drivenByte_of_input ((s.busWrite_dir v).trans hd)

/-! ### BUSRD -/

theorem exec_busrd (s : State) : exec .busrd s = .next s.busRead.2 := rfl

theorem State.takeBusIn_of_cons {s : State} {v : Byte} {rest : List Byte} (h : s.inputs.busIns = v :: rest) :
    s.takeBusIn = (v, s.setInputs { s.inputs with busIns := rest }) := by
  rw [State.takeBusIn, h]

theorem State.takeBusIn_of_nil {s : State} (h : s.inputs.busIns = []) : s.takeBusIn = s.draw := by
  rw [State.takeBusIn, h]

/-- While DIR is input BUSRD reads the byte the environment has on the lines (R110). -/
theorem State.busRead_of_given {s : State} {v : Byte} {rest : List Byte} (hd : s.dir = .input)
    (h : s.inputs.busIns = v :: rest) :
    s.busRead = (v, (s.setInputs { s.inputs with busIns := rest }).emit (.busRead v)) := by
  rw [State.busRead_input s hd rfl, State.takeBusIn_of_cons h]
  rfl

/-- While the block drives the lines (R111), or where the environment gives nothing, BUSRD reads a free byte. -/
theorem State.busRead_of_free {s : State} (h : s.dir = .output ∨ s.inputs.busIns = []) :
    s.busRead = (s.draw.1, s.draw.2.emit (.busRead s.draw.1)) := by
  unfold State.busRead
  cases hd : s.dir with
  | output => rfl
  | input =>
    have hnone : s.inputs.busIns = [] := h.resolve_left (by simp [hd])
    simp only [State.takeBusIn_of_nil hnone]

/-- Settles O20: by the two things a read of the lines can be. -/
theorem busrdResult : Obligations.BusrdResult := by
  unfold Obligations.BusrdResult
  refine ⟨fun s v rest hd hv => ?_, fun s hfree => ?_, by decide⟩
  · rw [exec_busrd, State.busRead_of_given hd hv]
    rfl
  · rw [exec_busrd, State.busRead_of_free hfree, s.draw_eq]
    rfl

end Sys2Proof.Machine
end

section
/-! Ill-formed configurations have no step (60_exceptions R199). -/

namespace Sys2Proof.Machine

/-- Settles O7: a configuration with no problem would be well-formed. -/
theorem illFormedConfigurationIsRefused : Obligations.IllFormedConfigurationIsRefused := by
  unfold Obligations.IllFormedConfigurationIsRefused
  intro s hill
  cases hp : configProblem s.cfg with
  | none => exact absurd ((configProblem_eq_none s.cfg).mp hp) hill
  | some why => exact ⟨why, step_of_configProblem hp⟩

end Sys2Proof.Machine
end

section
/-! The line operations and the register accesses: result, frame, events and time (41_register_protocol R115 to R129). -/

namespace Sys2Proof.Machine

/-! ### SETCTL, PULSE and WAIT -/

/-- The word of SETCTL is its operation number with the three levels in the low bits (R115). -/
theorem encode_setctl : ∀ ncs rs rw : Bit, encode (.setctl ncs rs rw) =
    0x40000000#32 ||| (ncs.setWidth 32 <<< 2) ||| (rs.setWidth 32 <<< 1) ||| rw.setWidth 32 := by decide

/-- Settles O21: the step sets the three lines and appends their event; the word is `encode_setctl`. -/
theorem setctlResult : Obligations.SetctlResult := by
  unfold Obligations.SetctlResult
  exact ⟨fun _ _ _ _ => rfl, encode_setctl⟩

/-- Settles O22: `State.pulse_eq` is the pulse, and a wait is its one event. -/
theorem pulseAndWaitResults : Obligations.PulseAndWaitResults := by
  unfold Obligations.PulseAndWaitResults
  exact ⟨fun s => congrArg Host.Outcome.next s.pulse_eq, fun _ _ => rfl⟩

/-! ### WRREG and RDREG -/

/-- Masking a five-bit index to its low five bits drops nothing (R87). -/
theorem indexByte_eq (idx : BitVec 5) : indexByte idx = idx.setWidth 8 := by
  revert idx
  decide

/-- RDREG runs the protocol's read. -/
theorem exec_rdreg (s : State) (idx : BitVec 5) : exec (.rdreg idx) s = .next (s.readRegister idx).2 := rfl

/-- A WRREG appends its fifteen events (R121). -/
theorem State.writeRegister_events (s : State) (idx : BitVec 5) (v : Byte) :
    (s.writeRegister idx v).events = s.events ++ wrregEvents s.cfg s.rs idx v := by
  rw [State.writeRegister_eq, indexByte_eq]
  rfl

/-- An RDREG appends its sixteen events, with the byte it returns in the BusRead (R126). -/
theorem State.readRegister_events (s : State) (idx : BitVec 5) :
    (s.readRegister idx).2.events = s.events ++ rdregEvents s.cfg s.rs idx (s.readRegister idx).1 := by
  rw [State.readRegister_eq, indexByte_eq]
  rfl

/-- Settles O23: by the closed form of a write. -/
theorem wrregResult : Obligations.WrregResult := by
  unfold Obligations.WrregResult
  intro idx v s
  refine ⟨?_, rfl⟩
  rw [exec_wrreg, State.writeRegister_eq, indexByte_eq]
  rfl

/-- RDREG's result, with what `BusIn()` gives left to the environment (R126). -/
theorem exec_rdreg_eq (s : State) (idx : BitVec 5) :
    exec (.rdreg idx) s = .next { s with
      dir := .input, dout := idx.setWidth 8, ncs := 1#1, rs := 1#1, rw := 1#1, e := 0#1, txn := none,
      events := s.events ++ rdregEvents s.cfg s.rs idx s.takeBusIn.1,
      inputs := s.takeBusIn.2.inputs } := by
  rw [exec_rdreg, State.readRegister_eq, indexByte_eq]
  rfl

/-- Settles O24: by RDREG's result, over a given byte and over a free one. -/
theorem rdregResult : Obligations.RdregResult := by
  unfold Obligations.RdregResult
  refine ⟨fun idx s v rest hv => ?_, fun idx s hnone => ⟨Config.freeByte s.inputs.draws, ?_⟩, fun _ _ _ _ => rfl⟩
  · rw [exec_rdreg_eq, State.takeBusIn_of_cons hv]
    rfl
  · rw [exec_rdreg_eq, State.takeBusIn_of_nil hnone]
    rfl

/-! ### Time (R129) -/

/-- The waits of a WRREG are those of its two pulses. -/
theorem delaySum_wrregEvents (c : Config) (rs0 : Bit) (idx : BitVec 5) (v : Byte) :
    delaySum (wrregEvents c rs0 idx v) = 2 * (c.tEH + c.tEL) := by
  simp only [wrregEvents, delaySum]
  omega

/-- The waits of an RDREG are those of its two pulses. -/
theorem delaySum_rdregEvents (c : Config) (rs0 : Bit) (idx : BitVec 5) (v : Byte) :
    delaySum (rdregEvents c rs0 idx v) = 2 * (c.tEH + c.tEL) := by
  simp only [rdregEvents, delaySum]
  omega

/-- Settles O25: either access has two pulses and no other wait, and each half of a pulse lasts at least 1 (R118). -/
theorem registerAccessTakesItsTime : Obligations.RegisterAccessTakesItsTime := by
  unfold Obligations.RegisterAccessTakesItsTime
  rintro i s t evs ⟨hhigh, hlow, -⟩ hi h hevs
  have hsum : delaySum evs = 2 * (s.cfg.tEH + s.cfg.tEL) := by
    rcases hi with ⟨idx, v, rfl⟩ | ⟨idx, rfl⟩
    · cases h
      rw [State.writeRegister_events] at hevs
      rw [← List.append_cancel_left hevs, delaySum_wrregEvents]
    · cases h
      rw [State.readRegister_events] at hevs
      rw [← List.append_cancel_left hevs, delaySum_rdregEvents]
  exact ⟨hsum, by omega⟩

/-! ### The two drivers of the data lines (R128) -/

/-- With no SETCTL raising RW, lines that are deselected or in a write never reach a read data phase. -/
theorem LineView.not_readPhase_run_of_write {v : LineView} {evs : List LineEvent} (hv : v.ncs = 1#1 ∨ v.rw = 0#1)
    (hctl : ∀ a b, .ctl a b 1#1 ∉ evs) : (v.run evs).readPhase = false := by
  have hkept : (v.run evs).ncs = 1#1 ∨ (v.run evs).rw = 0#1 :=
    List.foldlRecOn (motive := fun u : LineView => u.ncs = 1#1 ∨ u.rw = 0#1) evs _ hv fun u hu ev hev => by
      cases ev with
      | ctl a b c => exact .inr ((BitVec.eq_zero_or_eq_one c).resolve_right fun h => hctl a b (h ▸ hev))
      | _ => exact hu
  rcases hkept with h | h <;> simp [LineView.readPhase, h]

/-- With no SETDIR output among the events, lines the block does not drive stay so. -/
theorem LineView.dir_run_of_input {v : LineView} {evs : List LineEvent} (hv : v.dir = .input)
    (hdir : .dir .output ∉ evs) : (v.run evs).dir = .input :=
  List.foldlRecOn (motive := fun u : LineView => u.dir = .input) evs _ hv fun u hu ev hev => by
    cases ev with
    | dir d =>
      cases d with
      | input => rfl
      | output => exact absurd hev hdir
    | _ => exact hu

/-- Before one SETDIR input RW is held low, and after it the block drives nothing: at no moment do both drive. -/
theorem LineView.not_contended {v : LineView} {before after done rest : List LineEvent}
    (hv : v.ncs = 1#1 ∨ v.rw = 0#1) (hctl : ∀ a b, .ctl a b 1#1 ∉ before) (hdir : .dir .output ∉ after)
    (hsplit : before ++ .dir .input :: after = done ++ rest) :
    ¬ ((v.run done).dir = .output ∧ (v.run done).readPhase = true) := by
  rintro ⟨hout, hread⟩
  rcases List.append_eq_append_iff.mp hsplit with ⟨mid, rfl, hmid⟩ | ⟨mid, rfl, -⟩
  · cases mid with
    | nil => simp [LineView.not_readPhase_run_of_write hv hctl] at hread
    | cons ev mid =>
      obtain ⟨rfl, rfl⟩ := List.cons.inj hmid
      have hin : (((v.run before).after (.dir .input)).run mid).dir = .input :=
        LineView.dir_run_of_input rfl fun h => hdir (List.mem_append_left rest h)
      rw [LineView.run_append] at hout
      cases hin.symm.trans hout
  · have hctl' : ∀ a b, .ctl a b 1#1 ∉ done := fun a b h => hctl a b (List.mem_append_left mid h)
    simp [LineView.not_readPhase_run_of_write hv hctl'] at hread

/-- The events of an access's address phase (R119). -/
def addressPhaseEvents (c : Config) (rs0 : Bit) (idx : BitVec 5) : List LineEvent :=
  [.dir .output, .ctl 0#1 rs0 0#1, .ctl 0#1 0#1 0#1, .data (idx.setWidth 8),
   .strobe 1#1, .delay c.tEH, .strobe 0#1, .delay c.tEL]

/-- The events of an RDREG after its SETDIR input (R126). -/
def readDataEvents (c : Config) (v : Byte) : List LineEvent :=
  [.ctl 0#1 1#1 1#1, .strobe 1#1, .delay c.tEH, .strobe 0#1, .delay c.tEL, .busRead v, .ctl 1#1 1#1 1#1]

theorem rdregEvents_eq (c : Config) (rs0 : Bit) (idx : BitVec 5) (v : Byte) :
    rdregEvents c rs0 idx v = addressPhaseEvents c rs0 idx ++ .dir .input :: readDataEvents c v := rfl

/-- Settles O26: an RDREG's SETDIR input stands between its address phase and its data phase. -/
theorem rdregNeverDrivesAgainstTheController : Obligations.RdregNeverDrivesAgainstTheController := by
  unfold Obligations.RdregNeverDrivesAgainstTheController
  rintro idx s t evs done rest hncs h hevs rfl
  cases h
  rw [State.readRegister_events, rdregEvents_eq] at hevs
  exact LineView.not_contended (.inl hncs) (by simp [addressPhaseEvents]) (by simp [readDataEvents])
    (List.append_cancel_left hevs)

end Sys2Proof.Machine
end

section
/-! What the controller's reference model makes of the operations (41_register_protocol R130 to R136). -/

namespace Sys2Proof.Machine

/-! ### A deselected controller (R134) -/

theorem Controller.observe_of_deselected (c : Controller) {v : LineView} (hv : v.ncs = 1#1) (ev : LineEvent) :
    c.observe v ev = c := by
  simp [Controller.observe, Controller.latch, hv]

/-- A deselected controller ignores whatever comes before the next SETCTL. -/
theorem Controller.run_of_deselected (c : Controller) {v : LineView} {evs : List LineEvent} (hv : v.ncs = 1#1)
    (hctl : ∀ a b d, .ctl a b d ∉ evs) : c.run v evs = c := by
  induction evs generalizing v with
  | nil => rfl
  | cons ev evs ih =>
    have hnext : (v.after ev).ncs = 1#1 := by
      cases ev with
      | ctl a b d => exact absurd List.mem_cons_self (hctl a b d)
      | _ => exact hv
    rw [Controller.run, c.observe_of_deselected hv]
    exact ih hnext fun a b d hmem => hctl a b d (List.mem_cons_of_mem ev hmem)

/-- An operation that runs no register access shows a deselected controller nothing it heeds. -/
theorem exec_leaves_deselected {i : Instr} {s t : State} (c : Controller) (hncs : s.ncs = 1#1)
    (hi : instrRunsAccess i = false) (h : exec i s = .next t) :
    ∃ evs, t.events = s.events ++ evs ∧ c.run s.lines evs = c := by
  have hv : s.lines.ncs = 1#1 := hncs
  cases exec_cases h with
  | access _ _ ha => simp [hi] at ha
  | verifyprof => cases hi
  | setctl a b d => exact ⟨_, rfl, c.observe_of_deselected hv (.ctl a b d)⟩
  | pulse => exact ⟨_, congrArg State.events s.pulse_eq, c.run_of_deselected hv (by simp)⟩
  | setdir | buswr | busrd | wait | sample | respond | serve => exact ⟨_, rfl, c.run_of_deselected hv (by simp)⟩
  | setmode | resetpat => exact ⟨[], (List.append_nil _).symm, rfl⟩
  | fillplane pl => cases pl <;> exact ⟨[], (List.append_nil _).symm, rfl⟩

/-- Settles O59: the events of `exec_leaves_deselected` are the operation's. -/
theorem deselectedControllerIsNeverWritten : Obligations.DeselectedControllerIsNeverWritten := by
  unfold Obligations.DeselectedControllerIsNeverWritten
  intro i s t evs c hncs hi h hevs
  obtain ⟨evs', hevs', hrun⟩ := exec_leaves_deselected c hncs hi h
  rwa [List.append_cancel_left (hevs.symm.trans hevs')]

/-! ### Writes (R131, R132) -/

/-- The controller after WRREGs of a profile's registers `rs`. -/
def Controller.programmed (c : Controller) (prof : Profile) (rs : List (Fin 16)) : Controller :=
  rs.foldl (fun c r => ⟨some (profileRegIndex r), c.written (profileRegIndex r) prof[r]⟩) c

theorem profileRegIndex_toNat (r : Fin 16) : (profileRegIndex r).toNat = r.val :=
  Nat.mod_eq_of_lt (by omega)

/-- One WRREG of a profile register. -/
theorem Controller.written_profileReg (c : Controller) (prof : Profile) (r : Fin 16) (k : Fin 18) :
    (c.written (profileRegIndex r) prof[r])[k] = if k.val = r.val then some prof[r] else c.regs[k] := by
  rw [Controller.written_get, profileRegIndex_toNat]
  simp [r.isLt]

theorem Controller.programmed_of_notMem (c : Controller) (prof : Profile) {rs : List (Fin 16)} {k : Fin 18}
    (hk : ∀ r ∈ rs, k.val ≠ r.val) : (c.programmed prof rs).regs[k] = c.regs[k] := by
  induction rs generalizing c with
  | nil => rfl
  | cons r rs ih =>
    obtain ⟨hr, hrs⟩ := List.forall_mem_cons.mp hk
    refine (ih _ hrs).trans ?_
    rw [Controller.written_profileReg, if_neg hr]

theorem Controller.programmed_of_mem (c : Controller) (prof : Profile) {rs : List (Fin 16)} {k : Fin 16}
    (hk : k ∈ rs) : (c.programmed prof rs).regs[k.val] = some prof[k] := by
  induction rs generalizing c with
  | nil => cases hk
  | cons r rs ih =>
    by_cases hlater : k ∈ rs
    · exact ih _ hlater
    · obtain rfl : k = r := (List.mem_cons.mp hk).resolve_right hlater
      have hlast : ∀ r ∈ rs, k.val ≠ r.val := fun r hr h => hlater (Fin.ext h ▸ hr)
      refine (Controller.programmed_of_notMem (k := k.castLE (by decide)) _ prof hlast).trans ?_
      exact (c.written_profileReg prof k _).trans (if_pos rfl)

/-- From `s` to `t` the block makes no read, and takes the controller from `c` to `c'`: A-READ over what follows is
A-READ from there. -/
def WritesTo (s t : State) (c c' : Controller) : Prop :=
  t.cfg = s.cfg ∧ ∃ evs, t.events = s.events ++ evs ∧ s.lines.run evs = t.lines ∧ c.run s.lines evs = c' ∧
    ∀ more, c.answersFrom s.cfg .closed s.lines (evs ++ more) = c'.answersFrom s.cfg .closed t.lines more

theorem WritesTo.refl (s : State) (c : Controller) : WritesTo s s c c :=
  ⟨rfl, [], (List.append_nil _).symm, rfl, rfl, fun _ => rfl⟩

theorem WritesTo.trans {s t u : State} {c c' c'' : Controller} (h : WritesTo s t c c') (k : WritesTo t u c' c'') :
    WritesTo s u c c'' := by
  obtain ⟨hcfg, xs, hx, hxl, hxr, hxa⟩ := h
  obtain ⟨kcfg, ys, hy, hyl, hyr, hya⟩ := k
  refine ⟨kcfg.trans hcfg, xs ++ ys, by rw [hy, hx, List.append_assoc], by rw [LineView.run_append, hxl, hyl],
    by rw [Controller.run_append, hxl, hxr, hyr], fun more => ?_⟩
  rw [List.append_assoc, hxa, ← hcfg, hya]

theorem State.writeRegister_writesTo (s : State) (idx : BitVec 5) (v : Byte) (c : Controller) :
    WritesTo s (s.writeRegister idx v) c ⟨some idx, c.written idx v⟩ := by
  have hlines : s.lines.run (wrregEvents s.cfg s.rs idx v) = (s.writeRegister idx v).lines := by
    rw [lines_wrregEvents, State.writeRegister_eq]
    rfl
  refine ⟨(s.writeRegister_frame idx v).1.cfg, _, s.writeRegister_events idx v, hlines, run_wrregEvents ..,
    fun more => ?_⟩
  rw [answersFrom_wrregEvents, run_wrregEvents, hlines]

theorem State.writeRegisters_writesTo (s : State) (prof : Profile) (rs : List (Fin 16)) (c : Controller) :
    WritesTo s (rs.foldl (fun s r => s.writeRegister (profileRegIndex r) prof[r]) s) c (c.programmed prof rs) := by
  induction rs generalizing s c with
  | nil => exact .refl s c
  | cons r rs ih =>
    rw [List.foldl_cons, Controller.programmed, List.foldl_cons]
    exact (s.writeRegister_writesTo (profileRegIndex r) prof[r] c).trans
      (ih (s.writeRegister (profileRegIndex r) prof[r]) _)

/-- APPLYPROF writes registers 0 to 15 (R175). -/
theorem State.applyProfile_writesTo (s : State) (prof : Profile) (c : Controller) :
    WritesTo s (s.applyProfile prof) c (c.programmed prof (List.finRange 16)) :=
  s.writeRegisters_writesTo prof (List.finRange 16) c

/-- Settles O55: by the controller's one WRREG, `run_wrregEvents`. -/
theorem wrregReachesTheController : Obligations.WrregReachesTheController := by
  unfold Obligations.WrregReachesTheController
  intro idx v s t evs c h hevs
  cases h
  rw [State.writeRegister_events] at hevs
  rw [← List.append_cancel_left hevs, run_wrregEvents]
  exact ⟨rfl, c.written_get idx v⟩

/-- Settles O56: the events of APPLYPROF write every profile register, register 15 last. -/
theorem applyprofProgramsTheController : Obligations.ApplyprofProgramsTheController := by
  unfold Obligations.ApplyprofProgramsTheController
  intro p s t prof evs c hp h hevs
  obtain ⟨prof', hp', rfl⟩ := execApplyprof_next h
  obtain rfl : prof = prof' := Option.some.inj (hp.symm.trans hp')
  obtain ⟨-, evs', hevs', -, hrun, -⟩ := s.applyProfile_writesTo prof c
  rw [List.append_cancel_left (hevs.symm.trans hevs'), hrun]
  exact ⟨rfl, fun r => c.programmed_of_mem prof (List.mem_finRange r),
    fun k hk => c.programmed_of_notMem prof fun r _ => by omega⟩

/-! ### Reads (R133) -/

/-- A readable register of known value is what the controller drives. -/
theorem Controller.answer_of_readable {regs : Vector (Option Byte) 18} {cfg : Config} {idx : BitVec 5}
    (hlt : idx.toNat < 18) (hread : idx ∈ cfg.readable) : Controller.answer ⟨some idx, regs⟩ cfg = regs[idx.toNat] := by
  simp [Controller.answer, hlt, hread]

/-- Under A-READ an RDREG of a readable register of known value reads that value, and A-READ goes on from the lines and
the controller after it. -/
theorem eq_of_answersFrom_rdregEvents {c : Controller} {cfg : Config} {w : ReadWindow} {v : LineView} {rs0 : Bit}
    {idx : BitVec 5} {want got : Byte} {more : List LineEvent} (hlt : idx.toNat < 18) (hread : idx ∈ cfg.readable)
    (hreg : c.regs[idx.toNat] = some want)
    (h : c.answersFrom cfg w v (rdregEvents cfg rs0 idx got ++ more) = true) :
    got = want ∧ Controller.answersFrom ⟨some idx, c.regs⟩ cfg .closed
      (v.run (rdregEvents cfg rs0 idx got)) more = true := by
  rw [answersFrom_rdregEvents, Controller.answer_of_readable hlt hread, hreg, run_rdregEvents] at h
  simpa using h

/-- Settles O58: by `eq_of_answersFrom_rdregEvents`, with nothing after the RDREG. -/
theorem rdregReturnsTheRegisterUnderARead : Obligations.RdregReturnsTheRegisterUnderARead := by
  unfold Obligations.RdregReturnsTheRegisterUnderARead
  intro idx hlt v s t evs c hread hreg h hevs hans
  cases h
  rw [State.readRegister_events] at hevs
  obtain rfl := List.append_cancel_left hevs
  rw [Controller.answersReads, ← List.append_nil (rdregEvents _ _ _ _)] at hans
  rw [(eq_of_answersFrom_rdregEvents hlt hread hreg hans).1, run_rdregEvents]
  exact ⟨rfl, rfl, rfl⟩

/-- The lines after an RDREG are those its events give. -/
theorem State.readRegister_lines (s : State) (idx : BitVec 5) :
    (s.readRegister idx).2.lines = s.lines.run (rdregEvents s.cfg s.rs idx (s.readRegister idx).1) := by
  rw [lines_rdregEvents, State.readRegister_eq, indexByte_eq]
  rfl

/-- Under A-READ, reading back registers that hold the profile finds no new mismatch (R180). -/
theorem State.readBack_mask {s : State} {prof : Profile} {rs : List (Fin 16)} {mask : BitVec 16} {evs : List LineEvent}
    {c : Controller} (hread : ∀ r ∈ rs, profileRegIndex r ∈ s.cfg.readable)
    (hregs : ∀ r : Fin 16, c.regs[r.val] = some prof[r])
    (hevs : (s.readBack prof rs mask).2.events = s.events ++ evs)
    (hans : c.answersFrom s.cfg .closed s.lines evs = true) : (s.readBack prof rs mask).1 = mask := by
  induction rs generalizing s mask evs c with
  | nil => rfl
  | cons r rs ih =>
    obtain ⟨hr, hrs⟩ := List.forall_mem_cons.mp hread
    have hcfg := (s.readRegister_frame (profileRegIndex r)).1.cfg
    have hlt : (profileRegIndex r).toNat < 18 := by rw [profileRegIndex_toNat]; omega
    have hreg : c.regs[(profileRegIndex r).toNat] = some prof[r] := by simpa only [profileRegIndex_toNat] using hregs r
    rw [State.readBack] at hevs ⊢
    obtain ⟨more, hmore, -⟩ := (s.readRegister (profileRegIndex r)).2.readBack_replays prof rs
      (verifyMask mask r prof[r] (s.readRegister (profileRegIndex r)).1)
    have hsplit : evs = rdregEvents s.cfg s.rs (profileRegIndex r) (s.readRegister (profileRegIndex r)).1 ++ more :=
      List.append_cancel_left (by rw [← hevs, hmore, State.readRegister_events, List.append_assoc])
    rw [hsplit] at hans
    obtain ⟨hgot, hlater⟩ := eq_of_answersFrom_rdregEvents hlt hr hreg hans
    rw [← State.readRegister_lines, ← hcfg] at hlater
    rw [ih (c := ⟨some (profileRegIndex r), c.regs⟩) (hcfg ▸ hrs) hregs hmore hlater, verifyMask, if_pos hgot]

theorem readable_of_mem_readableRegs {cfg : Config} {r : Fin 16} (h : r ∈ readableRegs cfg) :
    profileRegIndex r ∈ cfg.readable := by
  simpa [readableRegs] using h

/-- Settles O57: the writes leave the controller holding the profile, so under A-READ the read-back finds no mismatch. -/
theorem verifyprofFindsNoMismatchUnderARead : Obligations.VerifyprofFindsNoMismatchUnderARead := by
  unfold Obligations.VerifyprofFindsNoMismatchUnderARead
  intro p s t evs c h hevs hans
  obtain ⟨prof, -, rfl⟩ := execVerifyprof_next h
  obtain ⟨hcfg, writes, hwrites, -, -, hafter⟩ := s.applyProfile_writesTo prof c
  obtain ⟨reads, hreads, -⟩ := (s.applyProfile prof).readBack_replays prof (readableRegs s.cfg) 0#16
  have hsplit : evs = writes ++ reads := List.append_cancel_left <|
    calc s.events ++ evs = (s.applyProfile prof).events ++ reads := hevs.symm.trans hreads
      _ = s.events ++ (writes ++ reads) := by rw [hwrites, List.append_assoc]
  rw [Controller.answersReads, hsplit, hafter, ← hcfg] at hans
  have hread : ∀ r ∈ readableRegs s.cfg, profileRegIndex r ∈ (s.applyProfile prof).cfg.readable := by
    rw [hcfg]
    exact fun r => readable_of_mem_readableRegs
  have hmask := State.readBack_mask hread
    (fun r => c.programmed_of_mem prof (List.mem_finRange r)) hreads hans
  exact congrArg some hmask

end Sys2Proof.Machine
end

section
/-! The mode and buffer operations: result, frame and what a mode switch leaves (42_mode_buffer R141 to R150). -/

namespace Sys2Proof.Machine

/-! ### SETMODE -/

theorem exec_setmode (m : VideoMode) (s : State) : exec (.setmode m) s = .next (s.setMode m) := rfl

/-- Setting the mode that is set already changes nothing (R141). -/
theorem State.setMode_mode_self (s : State) : s.setMode s.mode = s := rfl

/-- Settles O28: the step sets MODE alone, so setting the mode already set gives the state back. -/
theorem setmodeResult : Obligations.SetmodeResult := by
  unfold Obligations.SetmodeResult
  exact ⟨exec_setmode, fun s => congrArg _ s.setMode_mode_self, by decide, by decide⟩

/-! ### An ITER that finds no change (R143) -/

theorem exec_iter (s : State) : exec .iter s = .next (s.takeSample.2.respond s.takeSample.1) := rfl

/-- `Sample()` where the environment has given a snapshot. -/
theorem State.takeSample_of_cons {s : State} {raw : Word} {rest : List Word} (h : s.inputs.samples = raw :: rest) :
    s.takeSample = (raw, s.setInputs { s.inputs with samples := rest }) := by
  unfold State.takeSample
  rw [h]

/-- A valid PREV that is the masked snapshot is no change (R158). -/
theorem State.changed_eq_false {s : State} {raw : Word} (hvalid : s.prevValid = true)
    (hkey : raw &&& s.cfg.cmpMask = s.prev) : s.changed raw = false := by
  simp [State.changed, changeKey, hvalid, hkey]

/-- Where nothing has changed an iteration only samples (R162). -/
theorem State.respond_of_unchanged {s : State} {raw : Word} (h : s.changed raw = false) :
    s.respond raw = s.emit (.addrSample raw) := by
  rcases s.respond_spec raw with ⟨-, hr⟩ | ⟨hc, -⟩
  · exact hr
  · exact absurd (hc.symm.trans h) (by decide)

/-- An ITER on a given snapshot of unchanged key takes the snapshot and appends its event, no more. -/
theorem exec_iter_of_unchanged {s : State} {raw : Word} {rest : List Word} (hs : s.inputs.samples = raw :: rest)
    (h : s.changed raw = false) :
    exec .iter s = .next ((s.setInputs { s.inputs with samples := rest }).emit (.addrSample raw)) := by
  rw [exec_iter, State.takeSample_of_cons hs]
  exact congrArg _ (State.respond_of_unchanged h)

/-- Settles O29: SETMODE leaves the samples, PREV and DOUT alone, so the ITER after it finds no change and only
samples. -/
theorem modeSwitchIsImmediateAndDoesNotReserve : Obligations.ModeSwitchIsImmediateAndDoesNotReserve := by
  unfold Obligations.ModeSwitchIsImmediateAndDoesNotReserve
  refine ⟨fun m a row s t h => ?_, fun m s t raw rest hs hvalid hkey h => ?_⟩
  · cases h
    rfl
  · cases h
    have hunchanged : (s.setMode m).changed raw = false := State.changed_eq_false (s := s.setMode m) hvalid hkey
    exact ⟨_, exec_iter_of_unchanged (s := s.setMode m) hs hunchanged, rfl, rfl⟩

/-! ### Whole-plane writes -/

/-- A whole-plane write over another of the same size leaves nothing of it (R147, R150). -/
theorem Memory.writeAll_writeAll (m : Memory) (n : Nat) (f g : Nat → Byte) :
    (m.writeAll n f).writeAll n g = m.writeAll n g := by
  have hbelow : (cellsFrom f n 0).filter (fun c => decide (n ≤ c.1)) = [] := by
    refine List.filter_eq_nil_iff.mpr fun c hc => ?_
    have := mem_cellsFrom 0 f n hc
    simp only [decide_eq_true_eq]
    omega
  rw [Memory.writeAll, Memory.writeAll, List.filter_append, hbelow, List.nil_append, List.filter_filter]
  simp only [Bool.and_self, Memory.writeAll]

/-- A whole-plane write leaves nothing of a memory that lies inside the plane (R147). -/
theorem Memory.writeAll_of_within {m : Memory} {n : Nat} (f : Nat → Byte) (h : m.Within n) :
    m.writeAll n f = cellsFrom f n 0 := by
  have hnone : m.filter (fun c => decide (n ≤ c.1)) = [] :=
    List.filter_eq_nil_iff.mpr fun c hc => by simpa using h c hc
  rw [Memory.writeAll, hnone, List.append_nil]

/-! ### RESETPAT -/

theorem exec_resetpat (s : State) : exec .resetpat s = .next s.resetPattern := rfl

/-- RESETPAT writes the two planes whole and no other field (R144, R148). -/
theorem State.resetPattern_eq (s : State) :
    s.resetPattern = { s with
      cplane := s.cplane.writeAll s.cfg.charPlaneSize charPattern,
      pplane := s.pplane.writeAll s.cfg.pixelPlaneSize pixelPattern } := rfl

/-- The cells of CPLANE after RESETPAT (R144). -/
theorem State.resetPattern_cplane_read (s : State) (i : Nat) :
    s.resetPattern.cplane.read i = if i < s.cfg.charPlaneSize then some (charPattern i) else s.cplane.read i :=
  Memory.read_writeAll s.cplane i charPattern s.cfg.charPlaneSize

/-- The cells of PPLANE after RESETPAT (R144). -/
theorem State.resetPattern_pplane_read (s : State) (i : Nat) :
    s.resetPattern.pplane.read i = if i < s.cfg.pixelPlaneSize then some (pixelPattern i) else s.pplane.read i :=
  Memory.read_writeAll s.pplane i pixelPattern s.cfg.pixelPlaneSize

/-- Settles O30: by the cells of each plane after the pattern, and because it writes no other field. -/
theorem resetpatResult : Obligations.ResetpatResult := by
  unfold Obligations.ResetpatResult
  exact ⟨fun s => ⟨s.resetPattern, exec_resetpat s, s.resetPattern_cplane_read, s.resetPattern_pplane_read, rfl⟩,
    by decide⟩

/-- The character pattern runs through the printable codes (R146). -/
theorem charPattern_bounds (i : Nat) : 0x20#8 ≤ charPattern i ∧ charPattern i ≤ 0x7F#8 := by
  have hval : (charPattern i).toNat = 0x20 + i % 96 := Nat.mod_eq_of_lt (by omega)
  rw [BitVec.le_def, BitVec.le_def, hval]
  exact ⟨by simp, by simp; omega⟩

/-- Settles O31: the named cells lie inside the default planes, and `charPattern_bounds` bounds the others. -/
theorem resetpatCornerCells : Obligations.ResetpatCornerCells := by
  unfold Obligations.ResetpatCornerCells
  intro s t hchar hpixel h
  cases h
  have hc : ∀ i, i < 2000 → s.resetPattern.cplane.read i = some (charPattern i) := fun i hi => by
    rw [State.resetPattern_cplane_read, hchar, if_pos hi]
  have hp : ∀ i, i < 8000 → s.resetPattern.pplane.read i = some (pixelPattern i) := fun i hi => by
    rw [State.resetPattern_pplane_read, hpixel, if_pos hi]
  exact ⟨hc 0 (by decide), hc 1 (by decide), hc 95 (by decide), hc 96 (by decide), hc 191 (by decide),
    hc 1999 (by decide), hp 255 (by decide), hp 256 (by decide), hp 257 (by decide), hp 7999 (by decide),
    fun i hi => ⟨charPattern i, hc i hi, charPattern_bounds i⟩⟩

/-- A second pattern finds the first and changes nothing (R147). -/
theorem State.resetPattern_resetPattern (s : State) : s.resetPattern.resetPattern = s.resetPattern := by
  simp only [State.resetPattern_eq, Memory.writeAll_writeAll]

/-- The planes after RESETPAT, where they lay inside their sizes before: their cells and nothing else (R147). -/
theorem State.resetPattern_planes {s : State} (h : s.Inv) :
    s.resetPattern.cplane = cellsFrom charPattern s.cfg.charPlaneSize 0 ∧
    s.resetPattern.pplane = cellsFrom pixelPattern s.cfg.pixelPlaneSize 0 := by
  obtain ⟨-, -, hcin, hpin, -⟩ := h
  exact ⟨Memory.writeAll_of_within charPattern hcin, Memory.writeAll_of_within pixelPattern hpin⟩

/-- Settles O32: the second pattern writes over the first, every cell of a plane reads a pattern byte, and the planes
are fixed by their sizes. -/
theorem resetpatIsIdempotentAndForgetful : Obligations.ResetpatIsIdempotentAndForgetful := by
  unfold Obligations.ResetpatIsIdempotentAndForgetful
  refine ⟨fun s t h => ?_, fun s t h => ?_, fun s s' t t' hs hs' hcfg h h' => ?_⟩
  · cases h
    rw [exec_resetpat, State.resetPattern_resetPattern]
  · cases h
    refine ⟨fun i hi => ?_, fun i hi => ?_⟩
    · rw [State.resetPattern_cplane_read, if_pos hi]
      exact Option.some_ne_none _
    · rw [State.resetPattern_pplane_read, if_pos hi]
      exact Option.some_ne_none _
  · cases h
    cases h'
    obtain ⟨hc, hp⟩ := State.resetPattern_planes hs
    obtain ⟨hc', hp'⟩ := State.resetPattern_planes hs'
    exact ⟨by rw [hc, hc', hcfg], by rw [hp, hp', hcfg]⟩

/-! ### FILLPLANE -/

theorem exec_fillplane (pl : Plane) (s : State) :
    exec (.fillplane pl) s = .next (s.takeFill.2.fillWith pl s.takeFill.1) := rfl

/-- The contents of a fill are the next given, or none where the host has given nothing (R150, log entry 10). -/
theorem State.takeFill_eq {s : State} {contents : List Byte} {rest : List (List Byte)}
    (h : s.inputs.fills = contents :: rest ∨ (s.inputs.fills = [] ∧ contents = [] ∧ rest = [])) :
    s.takeFill = (contents, s.setInputs { s.inputs with fills := rest }) := by
  rcases h with h | ⟨h, rfl, rfl⟩
  · simp only [State.takeFill, h]
  · simp only [State.takeFill, h]
    rw [← h]
    rfl

@[simp] theorem State.setInputs_plane (s : State) (j : Inputs) (pl : Plane) : (s.setInputs j).plane pl = s.plane pl :=
  by cases pl <;> rfl

/-- The cells of a plane after a fill of it (R150). -/
theorem State.fillWith_read (s : State) (pl : Plane) (given : List Byte) (i : Nat) :
    ((s.fillWith pl given).plane pl).read i =
      if i < s.cfg.planeSize pl then some (fillContents given s.inputs.draws i) else (s.plane pl).read i := by
  rw [← s.fillPlane_read i (fillContents given s.inputs.draws) pl]
  cases pl <;> rfl

/-- A fill leaves the other plane as it was (R150). -/
theorem State.fillWith_plane_of_ne (s : State) {pl other : Plane} (given : List Byte) (h : other ≠ pl) :
    (s.fillWith pl given).plane other = s.plane other := by
  cases pl <;> cases other
  · exact absurd rfl h
  · rfl
  · rfl
  · exact absurd rfl h

/-- A fill writes the planes and the draw counter and no other field (R150). -/
theorem State.fillWith_frame (s : State) (pl : Plane) (given : List Byte) :
    s.fillWith pl given = { s with
      cplane := (s.fillWith pl given).cplane, pplane := (s.fillWith pl given).pplane,
      inputs := { s.inputs with draws := (s.fillWith pl given).inputs.draws } } := by
  cases pl <;> rfl

/-- A cell the given contents reach gets their byte. -/
theorem fillContents_of_lt {given : List Byte} {i : Nat} (n : Nat) (h : i < given.length) :
    some (fillContents given n i) = given[i]? := by
  simp [fillContents, h]

/-- Settles O33: with the contents taken, a fill is known by its cells, the other plane and its frame. -/
theorem fillplaneResult : Obligations.FillplaneResult := by
  unfold Obligations.FillplaneResult
  intro pl s contents rest hgiven
  have hread := (s.setInputs { s.inputs with fills := rest }).fillWith_read pl contents
  refine ⟨_, by rw [exec_fillplane, State.takeFill_eq hgiven], fun i hi hreach => ?_, fun i hi => ?_, fun i hi => ?_,
    fun other hne => ?_, State.fillWith_frame _ pl contents⟩
  · exact (hread i).trans ((if_pos hi).trans (fillContents_of_lt _ hreach))
  · exact ne_of_eq_of_ne ((hread i).trans (if_pos hi)) (Option.some_ne_none _)
  · exact (hread i).trans ((if_neg (Nat.not_lt.mpr hi)).trans (by rw [State.setInputs_plane]))
  · rw [State.fillWith_plane_of_ne _ contents hne, State.setInputs_plane]

end Sys2Proof.Machine
end

section
/-! The glyph index, serves of written cells, and what an iteration of the response loop does (43_response_loop R154 to
R165). -/

namespace Sys2Proof.Machine

/-! ### The glyph index (R154) -/

theorem glyphIndex_val (c : Byte) (row : BitVec 3) : (glyphIndex c row).val = c.toNat * 8 + row.toNat := rfl

/-- `row` has three bits, so appending it to `c` is adding it to `c * 8`. -/
theorem toNat_append_row (c : Byte) (row : BitVec 3) : (c ++ row).toNat = c.toNat * 8 + row.toNat := by
  rw [BitVec.toNat_append, ← Nat.shiftLeft_add_eq_or_of_lt row.isLt, Nat.shiftLeft_eq]

/-- Settles O35: the index is a `Fin 2048` with that value. -/
theorem glyphIndexIsTheConcatenation : Obligations.GlyphIndexIsTheConcatenation := by
  unfold Obligations.GlyphIndexIsTheConcatenation
  exact fun c row => ⟨glyphIndex_val c row, (glyphIndex_val c row).trans (toNat_append_row c row).symm,
    (glyphIndex c row).isLt⟩

/-! ### Serves of written cells (R155, R156) -/

/-- A read of a written cell inside the plane (R61). -/
theorem State.memRead_of_written {s : State} {pl : Plane} {a : Nat} {v : Byte} (ha : a < s.cfg.planeSize pl)
    (hv : (s.plane pl).read a = some v) : s.memRead pl a = (v, s) := by
  simp only [State.memRead, resolveAddress_of_lt ha, hv]

/-- A serve of a written cell is the BUSWR of its looked-up byte (R164). -/
theorem State.serve_of_written {s : State} {a : BitVec 14} (row : BitVec 3) {v : Byte}
    (ha : a.toNat < s.cfg.planeSize (servedPlane s.mode)) (hv : (s.plane (servedPlane s.mode)).read a.toNat = some v) :
    s.serve a row = s.busWrite (servedByte s.cfg s.mode row v) := by
  rw [State.serve_eq, State.memRead_of_written ha hv]

/-- Settles O36: each mode reads its plane, and BUSWR is the whole effect. -/
theorem serveInRangeResult : Obligations.ServeInRangeResult := by
  unfold Obligations.ServeInRangeResult
  constructor
  · intro a row s c _ hmode ha hv
    have hbyte : servedByte s.cfg s.mode row c = s.cfg.glyphRom[c.toNat * 8 + row.toNat] := by rw [hmode]; rfl
    rw [exec_serve, State.serve_of_written row (by rwa [hmode]) (by rwa [hmode]), hbyte]
    rfl
  · intro a row s v hmode ha hv
    have hbyte : servedByte s.cfg s.mode row v = v := by rw [hmode]; rfl
    rw [exec_serve, State.serve_of_written row (by rwa [hmode]) (by rwa [hmode]), hbyte]
    rfl

/-- Settles O37: in PixelMode the lookup is the identity, whatever the row. -/
theorem pixelServeIgnoresTheRow : Obligations.PixelServeIgnoresTheRow := by
  unfold Obligations.PixelServeIgnoresTheRow
  intro a r1 r2 s hmode
  have hbyte : servedByte s.cfg s.mode r1 = servedByte s.cfg s.mode r2 := by rw [hmode]; rfl
  rw [exec_serve, exec_serve, State.serve_eq, State.serve_eq, hbyte]

/-! ### The change detector (R158, R159) -/

/-- No change exactly when the masked snapshot is recorded already (R158). -/
theorem State.changed_eq_false_iff {s : State} {raw : Word} :
    s.changed raw = false ↔ s.prevValid = true ∧ changeKey s.cfg raw = s.prev := by
  simp [State.changed]

theorem State.changed_eq_true_iff {s : State} {raw : Word} :
    s.changed raw = true ↔ s.prevValid = false ∨ changeKey s.cfg raw ≠ s.prev := by
  simp [State.changed]

/-- The detector reads the configuration, PREV and PREV_VALID alone. -/
theorem State.changed_congr {s t : State} (raw : Word) (hcfg : t.cfg = s.cfg) (hprev : t.prev = s.prev)
    (hvalid : t.prevValid = s.prevValid) : t.changed raw = s.changed raw := by
  rw [State.changed, State.changed, hcfg, hprev, hvalid]

/-- Of the snapshot the detector reads the masked key alone. -/
theorem State.changed_of_key_eq (s : State) {r1 r2 : Word} (h : changeKey s.cfg r1 = changeKey s.cfg r2) :
    s.changed r1 = s.changed r2 := by
  rw [State.changed, State.changed, h]

/-- A well-formed mask has every bit of the address and the row (R159). -/
theorem changeKey_and_fields {c : Config} (hwf : c.WellFormed) (raw : Word) :
    changeKey c raw &&& 0x0001FFFF#32 = raw &&& 0x0001FFFF#32 := by
  obtain ⟨-, -, hmask, -⟩ := hwf
  rw [changeKey, BitVec.and_assoc, hmask]

/-- The low seventeen bits of a snapshot hold its address (R81). -/
theorem snapshotAddr_and_fields (raw : Word) : snapshotAddr (raw &&& 0x0001FFFF#32) = snapshotAddr raw := by
  have hones : (0x0001FFFF#32).extractLsb' 0 14 = BitVec.allOnes 14 := by decide
  rw [snapshotAddr, BitVec.extractLsb'_and, hones, BitVec.and_allOnes, snapshotAddr]

/-- The low seventeen bits of a snapshot hold its row (R81). -/
theorem snapshotRow_and_fields (raw : Word) : snapshotRow (raw &&& 0x0001FFFF#32) = snapshotRow raw := by
  have hones : (0x0001FFFF#32).extractLsb' 14 3 = BitVec.allOnes 3 := by decide
  rw [snapshotRow, BitVec.extractLsb'_and, hones, BitVec.and_allOnes, snapshotRow]

/-- Settles O45: equal keys have the same low seventeen bits, which give the same address and row. -/
theorem noAddressChangeEscapesTheMask : Obligations.NoAddressChangeEscapesTheMask := by
  unfold Obligations.NoAddressChangeEscapesTheMask
  intro c r1 r2 hwf hdiff hkey
  have hlow : r1 &&& 0x0001FFFF#32 = r2 &&& 0x0001FFFF#32 := by
    rw [← changeKey_and_fields hwf, hkey, changeKey_and_fields hwf]
  have haddr : snapshotAddr r1 = snapshotAddr r2 := by
    rw [← snapshotAddr_and_fields, hlow, snapshotAddr_and_fields]
  have hrow : snapshotRow r1 = snapshotRow r2 := by
    rw [← snapshotRow_and_fields, hlow, snapshotRow_and_fields]
  exact hdiff.elim (· haddr) (· hrow)

/-! ### One iteration (R160 to R163) -/

/-- Where the key has changed, an iteration is its sample and the serve of the decoded pair, with the key recorded
(R160, R161). -/
theorem State.respond_of_changed {s : State} {raw : Word} (h : s.changed raw = true) :
    s.respond raw = { (s.emit (.addrSample raw)).serve (snapshotAddr raw) (snapshotRow raw) with
      prev := changeKey s.cfg raw, prevValid := true, lstate := .idle } := by
  rcases s.respond_spec raw with ⟨hc, -⟩ | ⟨-, hr⟩
  · exact absurd (hc.symm.trans h) (by decide)
  · rw [hr, State.serve_setLoop]
    rfl

/-- What an iteration that serves writes: its two events with the byte served, the key, FAULTS and the draw counter. -/
theorem State.respond_of_changed_frame {s : State} {raw : Word} (h : s.changed raw = true) :
    ∃ (b : Byte) (fs : List Fault) (n : Nat), s.respond raw = { s with
      dout := b, faults := fs, prev := changeKey s.cfg raw, prevValid := true, lstate := .idle,
      events := s.events ++ [.addrSample raw, .data b], inputs := { s.inputs with draws := n } } := by
  obtain ⟨b, fs, n, -, hs⟩ := (s.emit (.addrSample raw)).serve_frame (snapshotAddr raw) (snapshotRow raw)
  exact ⟨b, fs, n, by rw [State.respond_of_changed h, hs]; simp [State.emit]⟩

/-- An iteration takes no further snapshot. -/
theorem State.respond_samples (s : State) (raw : Word) : (s.respond raw).inputs.samples = s.inputs.samples := by
  cases h : s.changed raw with
  | false => rw [State.respond_of_unchanged h]; rfl
  | true => obtain ⟨b, fs, n, hr⟩ := State.respond_of_changed_frame h; rw [hr]

@[simp] theorem State.respond_cfg (s : State) (raw : Word) : (s.respond raw).cfg = s.cfg := by
  cases h : s.changed raw with
  | false => rw [State.respond_of_unchanged h]; rfl
  | true => obtain ⟨b, fs, n, hr⟩ := State.respond_of_changed_frame h; rw [hr]

/-- After an iteration its own snapshot is no change (R158, R162). -/
theorem State.respond_changed (s : State) (raw : Word) : (s.respond raw).changed raw = false := by
  cases h : s.changed raw with
  | false => rw [State.respond_of_unchanged h]; exact h
  | true =>
    obtain ⟨b, fs, n, hr⟩ := State.respond_of_changed_frame h
    rw [hr]
    exact State.changed_eq_false_iff.mpr ⟨rfl, rfl⟩

/-- An ITER where the environment has given a snapshot. -/
theorem exec_iter_of_cons {s : State} {raw : Word} {rest : List Word} (hs : s.inputs.samples = raw :: rest) :
    exec .iter s = .next ((s.setInputs { s.inputs with samples := rest }).respond raw) := by
  rw [exec_iter, State.takeSample_of_cons hs]

/-- Settles O42: the two equations of an iteration, on the state whose sample is taken and recorded. -/
theorem iterResult : Obligations.IterResult := by
  unfold Obligations.IterResult
  intro s raw rest hs
  refine ⟨fun hvalid hkey => ?_, fun hchange => ?_⟩
  · exact exec_iter_of_unchanged hs (State.changed_eq_false hvalid hkey)
  · have hchanged : (s.setInputs { s.inputs with samples := rest }).changed raw = true :=
      State.changed_eq_true_iff.mpr hchange
    exact ⟨_, rfl, by rw [exec_iter_of_cons hs, State.respond_of_changed hchanged]; rfl⟩

/-- Settles O43: by the two cases of an iteration on the snapshot it took. -/
theorem iterServesExactlyOncePerChange : Obligations.IterServesExactlyOncePerChange := by
  unfold Obligations.IterServesExactlyOncePerChange
  intro s t h
  obtain ⟨raw, j, hs, -⟩ := s.takeSample_spec
  rw [exec_iter, hs] at h
  cases h
  refine ⟨raw, ?_⟩
  cases hc : (s.setInputs j).changed raw with
  | false =>
    obtain ⟨hvalid, hkey⟩ := State.changed_eq_false_iff.mp hc
    rw [State.respond_of_unchanged hc]
    exact .inr ⟨hvalid, hkey, rfl, rfl⟩
  | true =>
    obtain ⟨b, fs, n, hr⟩ := State.respond_of_changed_frame hc
    rw [hr]
    exact .inl ⟨State.changed_eq_true_iff.mp hc, b, rfl, rfl⟩

/-- Settles O44: the first iteration leaves its own snapshot unchanged, hence the second of the same key too. -/
theorem repeatedSnapshotIsNotServedAgain : Obligations.RepeatedSnapshotIsNotServedAgain := by
  unfold Obligations.RepeatedSnapshotIsNotServedAgain
  intro s t r1 r2 rest hs hkey h
  rw [exec_iter_of_cons hs] at h
  cases h
  have hsame := State.changed_of_key_eq ((s.setInputs { s.inputs with samples := r2 :: rest }).respond r1)
    (r1 := r1) (r2 := r2) (by rw [State.respond_cfg]; exact hkey)
  exact exec_iter_of_unchanged (State.respond_samples _ r1) (hsame.symm.trans (State.respond_changed _ r1))

end Sys2Proof.Machine
end

section
/-! Fair runs of the sequencer: sampling recurs, and a held snapshot stays recorded once it is (70_reset R234). -/

namespace Sys2Proof.Machine

/-! ### What keeps a snapshot recorded -/

/-- Only an ITER writes what the change detector reads (R50). -/
theorem exec_changed {i : Instr} {s t : State} (raw : Word) (hi : i ≠ .iter) (h : exec i s = .next t) :
    t.changed raw = s.changed raw := by
  obtain ⟨hcfg, -, -, -, -, -, -, hiter, -⟩ := accessMatrix i s t h
  have hkeep : t.prev = s.prev ∧ t.prevValid = s.prevValid := by
    by_contra hne
    rw [Classical.not_and_iff_not_or_not] at hne
    exact hi (hiter (hne.imp_right .inl))
  exact State.changed_congr raw hcfg hkeep.1 hkeep.2

theorem ProtocolFrame.changed {s t : State} (h : ProtocolFrame s t) (raw : Word) : t.changed raw = s.changed raw :=
  State.changed_congr raw h.cfg h.prev h.prevValid

/-- Reading the host's schedule takes no snapshot. -/
theorem samples_of_passTaken {i j : Inputs} (h : i.PassTaken j) : j.samples = i.samples := by rw [h]

/-- An ITER leaves the snapshot it was given recorded. -/
theorem changed_of_exec_iter {s t : State} {raw : Word} {rest : List Word} (hs : s.inputs.samples = raw :: rest)
    (h : exec .iter s = .next t) : t.changed raw = false := by
  rw [exec_iter_of_cons hs] at h
  cases h
  exact State.respond_changed _ raw

/-- While the environment holds a snapshot that is recorded, a step of the sequencer keeps it recorded: the only
snapshot an ITER can then record is that one. -/
theorem step_keeps_recorded {s t : State} {raw : Word} {rest : List Word} (ho : s.inputs.ops = [])
    (hs : s.inputs.samples = raw :: rest) (hc : s.changed raw = false) (h : step s = .next t) :
    t.changed raw = false := by
  obtain ⟨-, hsteps⟩ := step_cases h
  cases hsteps with
  | operation _ _ _ _ hw => simp [ho] at hw
  | startup prof u _ _ _ hu =>
    obtain ⟨hf, -⟩ := s.applyProfile_frame prof
    rw [hu] at hf
    exact (hf.changed raw).trans hc
  | idle => exact hc
  | loopOperation j _ _ _ _ hj hop hx =>
    rcases hop with ⟨rfl, -⟩ | ⟨m, rfl⟩ | rfl
    · exact changed_of_exec_iter ((samples_of_passTaken hj).trans hs) hx
    · exact (exec_changed (i := .setmode m) raw nofun hx).trans hc
    · exact (exec_changed (i := .resetpat) raw nofun hx).trans hc
  | fill j pl given => rw [State.fillWith_frame]; exact hc
  | profile j o u _ _ _ hop hx =>
    have hne : o ≠ .iter := by rcases hop with ⟨p, rfl⟩ | ⟨p, rfl⟩ <;> exact nofun
    exact (exec_changed raw hne hx).trans hc

/-! ### Passes that are an ITER -/

section
variable {s t : State} (ho : s.inputs.ops = []) (hi : s.takesIter) (h : step s = .next t)
include ho hi h

/-- A pass that the schedule makes an ITER runs it once the schedule is read (R183). -/
theorem step_of_takesIter : ∃ j, s.inputs.PassTaken j ∧ exec .iter (s.setInputs j) = .next t := by
  obtain ⟨hq, hp⟩ := hi
  obtain ⟨p, j, htake, hj⟩ := s.takePass_spec
  rw [htake] at hp
  cases hp
  rw [step_of_loop (step_cases h).1 ho hq, loopPass, htake] at h
  exact ⟨j, hj, h⟩

/-- Such a pass samples the address input. -/
theorem events_of_takesIter : ∃ raw evs, t.events = s.events ++ .addrSample raw :: evs := by
  obtain ⟨j, -, hx⟩ := step_of_takesIter ho hi h
  obtain ⟨raw, ⟨-, b, hev, -⟩ | ⟨-, -, hev, -⟩⟩ := iterServesExactlyOncePerChange _ t hx
  · exact ⟨raw, [.data b], hev⟩
  · exact ⟨raw, [], hev⟩

/-- Such a pass leaves the snapshot it was given recorded. -/
theorem recorded_of_takesIter {raw : Word} {rest : List Word} (hs : s.inputs.samples = raw :: rest) :
    t.changed raw = false := by
  obtain ⟨j, hj, hx⟩ := step_of_takesIter ho hi h
  exact changed_of_exec_iter ((samples_of_passTaken hj).trans hs) hx

end

/-! ### Runs -/

/-- Settles O60: fairness gives an ITER at or after any step; it samples, and on a held snapshot leaves it recorded,
as every later step then keeps it. -/
theorem fairRunsServeAHeldAddress : Obligations.FairRunsServeAHeldAddress := by
  unfold Obligations.FairRunsServeAHeldAddress
  intro r env hrun hfair
  refine ⟨fun n => ?_, fun n raw hheld => ?_⟩
  · obtain ⟨m, hm, hiter⟩ := hfair n
    obtain ⟨hops, -, hstep⟩ := hrun m
    obtain ⟨raw, evs, hev⟩ := events_of_takesIter hops hiter hstep
    exact ⟨m, raw, evs, hm, hev⟩
  · obtain ⟨m, hm, hiter⟩ := hfair n
    have hrecorded : ∀ k, m + 1 ≤ k → (r k).changed raw = false := by
      intro k hk
      induction k, hk using Nat.le_induction with
      | base =>
        obtain ⟨hops, -, hstep⟩ := hrun m
        obtain ⟨rest, hs⟩ := hheld m hm
        exact recorded_of_takesIter hops hiter hstep hs
      | succ k hk ih =>
        obtain ⟨hops, -, hstep⟩ := hrun k
        obtain ⟨rest, hs⟩ := hheld k (by omega)
        exact step_keeps_recorded (s := (r k).setInputs (env k)) hops hs ih hstep
    refine ⟨m + 1, by omega, fun k hk => ?_⟩
    obtain ⟨hvalid, hkey⟩ := State.changed_eq_false_iff.mp (hrecorded k hk)
    exact ⟨hvalid, hkey.symm⟩

end Sys2Proof.Machine
end

section
/-! The profile operations and the sequencer that runs them (44_profile_sequencer R175 to R187). -/

namespace Sys2Proof.Machine

/-! ### The state after register accesses -/

/-- `s` after register accesses: the lines as the last of them leaves them, with the direction `d`, the byte `v` and RW
at `rw`; the events `evs` of all of them; the inputs `j` they have left (R121, R126). -/
def State.accessed (s : State) (d : Direction) (v : Byte) (rw : Bit) (evs : List LineEvent) (j : Inputs) : State :=
  { s with
    dir := d, dout := v, ncs := 1#1, rs := 1#1, rw := rw, e := 0#1, txn := none, events := s.events ++ evs, inputs := j }

/-- Of accesses in a row only the events of the earlier ones stay. -/
theorem State.accessed_accessed (s : State) (d d' : Direction) (v v' : Byte) (rw rw' : Bit) (xs ys : List LineEvent)
    (j k : Inputs) : (s.accessed d v rw xs j).accessed d' v' rw' ys k = s.accessed d' v' rw' (xs ++ ys) k := by
  simp only [State.accessed, List.append_assoc]

theorem State.writeRegister_eq_accessed (s : State) (idx : BitVec 5) (v : Byte) :
    s.writeRegister idx v = s.accessed .output v 0#1 (wrregEvents s.cfg s.rs idx v) s.inputs := by
  rw [State.writeRegister_eq, indexByte_eq]
  rfl

theorem State.readRegister_eq_accessed (s : State) (idx : BitVec 5) :
    s.readRegister idx = (s.takeBusIn.1, s.accessed .input (idx.setWidth 8) 1#1
      (rdregEvents s.cfg s.rs idx s.takeBusIn.1) s.takeBusIn.2.inputs) := by
  rw [State.readRegister_eq, indexByte_eq]
  rfl

/-! ### APPLYPROF -/

/-- The writes of a profile from register `r` on: only the first finds RS as it stood at entry. -/
theorem State.writeRegisters_eq (s : State) (prof : Profile) (r : Fin 16) (rs : List (Fin 16)) :
    (r :: rs).foldl (fun s r => s.writeRegister (profileRegIndex r) prof[r]) s =
      s.accessed .output prof[(r :: rs).getLast (List.cons_ne_nil r rs)] 0#1
        (wrregEvents s.cfg s.rs (profileRegIndex r) prof[r] ++
          rs.flatMap fun r => wrregEvents s.cfg 1#1 (profileRegIndex r) prof[r]) s.inputs := by
  induction rs generalizing s r with
  | nil => simp [State.writeRegister_eq_accessed]
  | cons r' rs ih =>
    rw [List.foldl_cons, ih, State.writeRegister_eq_accessed, State.accessed_accessed]
    rfl

/-- The events of APPLYPROF are those of its first write and of the fifteen after it (R176). -/
theorem applyprofEvents_eq (c : Config) (rs0 : Bit) (prof : Profile) :
    applyprofEvents c rs0 prof = wrregEvents c rs0 (profileRegIndex 0) prof[(0 : Fin 16)] ++
      (List.finRange 16).tail.flatMap fun r => wrregEvents c 1#1 (profileRegIndex r) prof[r] := rfl

/-- Sixteen writes of fifteen events each (R176). -/
theorem length_applyprofEvents (c : Config) (rs0 : Bit) (prof : Profile) :
    (applyprofEvents c rs0 prof).length = 240 := by
  simp [applyprofEvents, wrregEvents]

/-- APPLYPROF ends as its last write does, with the events of all sixteen (R176). -/
theorem State.applyProfile_eq (s : State) (prof : Profile) :
    s.applyProfile prof = s.accessed .output prof[15] 0#1 (applyprofEvents s.cfg s.rs prof) s.inputs := by
  rw [applyprofEvents_eq]
  exact s.writeRegisters_eq prof 0 (List.finRange 16).tail

theorem exec_applyprof {s : State} {p : BitVec 8} {prof : Profile} (h : s.cfg.profiles[p.toNat]? = some prof) :
    exec (.applyprof p) s = .next (s.applyProfile prof) := by
  rw [exec, execApplyprof, profileAt, h]

/-- Settles O47: by the closed form of a profile's writes. -/
theorem applyprofResult : Obligations.ApplyprofResult := by
  unfold Obligations.ApplyprofResult
  intro p s prof hp
  refine ⟨?_, length_applyprofEvents s.cfg s.rs prof⟩
  rw [exec_applyprof hp, State.applyProfile_eq]
  rfl

/-! ### The environment's answers to reads -/

/-- From the inputs `i` the lines are sampled once for each byte of `vs`, which leaves the inputs `j`: where the
environment gives enough bytes, `vs` are its next ones (R127; log entry 7). -/
structure Answers (i : Inputs) (vs : List Byte) (j : Inputs) : Prop where
  frame : j = { i with busIns := j.busIns, draws := j.draws }
  given : ∀ given rest, i.busIns = given ++ rest → given.length = vs.length →
    vs = given ∧ j.busIns = rest ∧ j.draws = i.draws

theorem Answers.nil (i : Inputs) : Answers i [] i where
  frame := rfl
  given given rest hi hlen := by
    obtain rfl := List.eq_nil_of_length_eq_zero hlen
    exact ⟨rfl, hi, rfl⟩

/-- One sample, then those from the inputs it leaves. -/
theorem State.takeBusIn_answers {s : State} {vs : List Byte} {j : Inputs} (h : Answers s.takeBusIn.2.inputs vs j) :
    Answers s.inputs (s.takeBusIn.1 :: vs) j := by
  cases hb : s.inputs.busIns with
  | nil =>
    rw [State.takeBusIn_of_nil hb] at h ⊢
    refine ⟨h.frame, fun given rest hi hlen => ?_⟩
    obtain ⟨rfl, -⟩ := List.append_eq_nil_iff.mp (hi.symm.trans hb)
    cases hlen
  | cons v bs =>
    rw [State.takeBusIn_of_cons hb] at h ⊢
    refine ⟨h.frame, fun given rest hi hlen => ?_⟩
    cases given with
    | nil => cases hlen
    | cons g gs =>
      obtain ⟨rfl, hbs⟩ := List.cons.inj (hb.symm.trans hi)
      obtain ⟨rfl, hrest⟩ := h.given gs rest hbs (Nat.succ.inj hlen)
      exact ⟨rfl, hrest⟩

/-! ### VERIFYPROF -/

/-- One comparison sets the register's bit exactly on a mismatch (R180). -/
theorem getLsbD_verifyMask (mask : BitVec 16) (r k : Fin 16) (want got : Byte) :
    (verifyMask mask r want got).getLsbD k.val = true ↔ mask.getLsbD k.val = true ∨ k = r ∧ got ≠ want := by
  unfold verifyMask
  split
  next hmatch => simp [hmatch]
  next hdiffers =>
    have hbit : (1#16 <<< r.val).getLsbD k.val = true ↔ k = r := by
      rw [← BitVec.twoPow_eq, BitVec.getLsbD_twoPow]
      simp [Fin.ext_iff, eq_comm]
    rw [BitVec.getLsbD_or, Bool.or_eq_true, hbit, and_iff_left hdiffers]

/-- The driven index byte of a profile register is its number (R87). -/
theorem profileRegIndex_setWidth (r : Fin 16) : (profileRegIndex r).setWidth 8 = BitVec.ofNat 8 r.val := by
  revert r
  decide

/-- `mask'` has the bits of `mask`, and those of the registers of `xs` whose answer is not the profile's byte (R180). -/
def Mismatches (prof : Profile) (mask : BitVec 16) (xs : List (Fin 16 × Byte)) (mask' : BitVec 16) : Prop :=
  ∀ r : Fin 16, mask'.getLsbD r.val = true ↔ mask.getLsbD r.val = true ∨ ∃ v, (r, v) ∈ xs ∧ v ≠ prof[r]

theorem Mismatches.nil (prof : Profile) (mask : BitVec 16) : Mismatches prof mask [] mask := by
  simp [Mismatches]

theorem Mismatches.cons {prof : Profile} {mask mask' : BitVec 16} {r : Fin 16} {v : Byte} {xs : List (Fin 16 × Byte)}
    (h : Mismatches prof (verifyMask mask r prof[r] v) xs mask') : Mismatches prof mask ((r, v) :: xs) mask' := by
  intro k
  rw [h k, getLsbD_verifyMask, or_assoc]
  by_cases hk : k = r
  · simp [hk, or_and_right, exists_or]
  · simp [hk]

/-- The read-back from register `r` on, RS standing at 1 (R180): an RDREG of each register on the environment's next
answers, ending as the last RDREG does. -/
theorem State.readBack_eq {s : State} (hrs : s.rs = 1#1) (prof : Profile) (r : Fin 16) (rs : List (Fin 16))
    (mask : BitVec 16) :
    ∃ vs j mask', vs.length = (r :: rs).length ∧ Answers s.inputs vs j ∧
      Mismatches prof mask ((r :: rs).zip vs) mask' ∧
      s.readBack prof (r :: rs) mask = (mask', s.accessed .input
        (BitVec.ofNat 8 ((r :: rs).getLast (List.cons_ne_nil r rs)).val) 1#1
        (((r :: rs).zip vs).flatMap fun x => rdregEvents s.cfg 1#1 (profileRegIndex x.1) x.2) j) := by
  induction rs generalizing s r mask with
  | nil =>
    refine ⟨[s.takeBusIn.1], s.takeBusIn.2.inputs, _, rfl, State.takeBusIn_answers (.nil _), .cons (.nil _ _), ?_⟩
    simp [State.readBack, State.readRegister_eq_accessed, hrs, profileRegIndex_setWidth]
  | cons r' rs ih =>
    obtain ⟨vs, j, mask', hlen, hans, hmis, heq⟩ := ih
      (s := (s.readRegister (profileRegIndex r)).2) (by rw [State.readRegister_eq_accessed]; rfl) r'
      (verifyMask mask r prof[r] (s.readRegister (profileRegIndex r)).1)
    rw [State.readRegister_eq_accessed] at hans hmis heq
    refine ⟨s.takeBusIn.1 :: vs, j, mask', congrArg (· + 1) hlen, State.takeBusIn_answers hans, .cons hmis, ?_⟩
    rw [State.readBack, State.readRegister_eq_accessed, heq, State.accessed_accessed, hrs]
    rfl

theorem exec_verifyprof {s : State} {p : BitVec 8} {prof : Profile} (h : s.cfg.profiles[p.toNat]? = some prof) :
    exec (.verifyprof p) s = .next (s.verifyProfile prof) := by
  rw [exec, execVerifyprof, profileAt, h]

/-- Settles O49: the writes, then the read-back from the state they leave. -/
theorem verifyprofResult : Obligations.VerifyprofResult := by
  unfold Obligations.VerifyprofResult
  intro p s prof regs hp hregs hne
  replace hregs : readableRegs s.cfg = regs := hregs.symm
  obtain ⟨r, rs, rfl⟩ := List.exists_cons_of_ne_nil hne
  obtain ⟨vs, j, mask, hlen, hans, hmis, heq⟩ := State.readBack_eq (s := s.applyProfile prof)
    (by rw [State.applyProfile_eq]; rfl) prof r rs 0#16
  rw [State.applyProfile_eq] at hans heq
  obtain ⟨hframe, hgiven⟩ : Answers s.inputs vs j := hans
  refine ⟨vs, j.busIns, j.draws, mask, _, hlen, List.getLast?_eq_getLast_of_ne_nil hne, hlen ▸ hgiven,
    fun k => ?_, ?_⟩
  · simpa using hmis k
  · rw [exec_verifyprof hp, State.verifyProfile, hregs, State.applyProfile_eq, heq, State.accessed_accessed,
      List.append_assoc, ← hframe]
    rfl

/-- Settles O50: with no register to read back the mask stays all zero. -/
theorem verifyprofWithNothingReadable : Obligations.VerifyprofWithNothingReadable := by
  unfold Obligations.VerifyprofWithNothingReadable
  intro p s t hnone h
  obtain ⟨prof, hp, rfl⟩ := execApplyprof_next h
  have hregs : readableRegs s.cfg = [] := by
    rw [List.eq_nil_iff_forall_not_mem]
    exact fun r hr => hnone r (readable_of_mem_readableRegs hr)
  rw [exec_verifyprof hp, State.verifyProfile, hregs]
  rfl

/-! ### The sequencer -/

/-- Settles O51: Startup is APPLYPROF of the initial profile, SETDIR output and SEQ to Loop. -/
theorem startupProgramsTheInitialProfile : Obligations.StartupProgramsTheInitialProfile := by
  unfold Obligations.StartupProgramsTheInitialProfile
  intro s prof hwf hops hseq hp
  constructor
  · rw [step_of_no_op hwf hops, runSequencer, hseq]
    simp only [startUp, profileAt, hp, State.applyProfile_eq]
    rfl
  · rw [List.length_append, length_applyprofEvents]
    rfl

/-- Settles O54: a poll that finds a command runs it, and each command is its operations. -/
theorem commandDispatch : Obligations.CommandDispatch := by
  unfold Obligations.CommandDispatch
  intro s cmd rest hwf hops hseq hpass
  rw [step_of_poll hwf hops hseq hpass]
  refine ⟨?_, ?_, ?_, ?_, ?_⟩
  · rintro m rfl
    rfl
  · rintro rfl
    rfl
  · rintro pl contents rfl
    exact (exec_fillplane_of_given _ pl contents).symm
  · rintro p t rfl h
    exact congrArg thenDriveBus h
  · rintro p t rfl h
    exact congrArg thenDriveBus h

/-- No operation moves the sequencer (R50). -/
theorem exec_seq {i : Instr} {s t : State} (h : exec i s = .next t) : t.seq = s.seq := by
  obtain ⟨-, hseq, -⟩ := accessMatrix i s t h
  exact hseq

/-- Settles O15: Startup itself sets SEQ to Loop, and whatever else a step can be leaves SEQ alone. -/
theorem sequencerNeverReturnsToStartup : Obligations.SequencerNeverReturnsToStartup := by
  unfold Obligations.SequencerNeverReturnsToStartup
  intro s t h
  obtain ⟨-, hs⟩ := step_cases h
  have of_loop (hq : t.seq = .loop) : (s.seq = .loop → t.seq = .loop) ∧ (s.inputs.ops = [] → t.seq = .loop) :=
    ⟨fun _ => hq, fun _ => hq⟩
  cases hs with
  | operation w rest i _ hw _ hx => exact ⟨(exec_seq hx).trans, fun ho => by simp [ho] at hw⟩
  | startup => exact of_loop rfl
  | idle _ _ hq => exact of_loop hq
  | loopOperation _ _ _ _ hq _ _ hx => exact of_loop ((exec_seq hx).trans hq)
  | fill _ pl _ _ hq => cases pl <;> exact of_loop hq
  | profile _ _ _ _ hq _ _ hx => exact of_loop ((exec_seq hx).trans hq)

end Sys2Proof.Machine
end

section
/-! Exceptions (60_exceptions R195 to R201): what an operation adds to FAULTS. -/

namespace Sys2Proof.Machine

/-- Settles O40: a serve is its one plane read and a BUSWR, so FAULTS is as `State.serve_frame` gives it. -/
theorem serveRecordsAtMostOneFault : Obligations.ServeRecordsAtMostOneFault := by
  unfold Obligations.ServeRecordsAtMostOneFault
  intro a row s t h
  obtain ⟨b, fs, n, hfs, hserve⟩ := s.serve_frame a row
  rw [exec_serve, hserve] at h
  cases h
  exact hfs

/-- Settles O41: the FAULTS row of the access table, by contraposition. -/
theorem onlyServesRecordFaults : Obligations.OnlyServesRecordFaults := by
  unfold Obligations.OnlyServesRecordFaults
  intro i s t hi h
  obtain ⟨-, -, -, -, -, -, -, -, -, -, hfaults, -⟩ := accessMatrix i s t h
  by_contra hne
  have hserves : instrServes i = true := hfaults hne
  exact absurd hserves (by simp [hi])

end Sys2Proof.Machine
end

section
/-! What the block puts on the data lines after a reset (70_reset R215 to R218). -/

namespace Sys2Proof.Machine

/-- The first four events of Startup after a reset, RS standing at 0 (R121, R215): the fourth is the first byte written,
the number of profile register 0. -/
def resetOpening : List LineEvent := [.dir .output, .ctl 0#1 0#1 0#1, .ctl 0#1 0#1 0#1, .data 0x00#8]

/-- The step from reset with no word queued is Startup under some profile: its events are `resetOpening` and others,
none of which turns the bus round. -/
theorem events_of_step_reset {c : Config} {i : Inputs} {t : State} (ho : i.ops = [])
    (h : step (State.resetFrom c i) = .next t) :
    ∃ rest, t.events = resetOpening ++ rest ∧ .dir .input ∉ rest := by
  obtain ⟨-, hsteps⟩ := step_cases h
  cases hsteps with
  | operation w rest _ _ hw => exact absurd (ho.symm.trans hw) (List.cons_ne_nil w rest).symm
  | startup prof _ _ _ _ hu =>
    have hnever : .dir .input ∉ applyprofEvents c 0#1 prof ++ [.dir .output] := by
      simp [applyprofEvents, wrregEvents]
    rw [State.applyProfile_eq] at hu
    subst hu
    exact ⟨_, rfl, fun hmem => hnever (List.mem_append_right resetOpening hmem)⟩
  | idle _ _ hq | loopOperation _ _ _ _ hq | fill _ _ _ _ hq | profile _ _ _ _ hq => cases hq

/-- With no SETDIR input among the events, lines the block drives stay so. -/
theorem LineView.dir_run_of_output {v : LineView} {evs : List LineEvent} (hv : v.dir = .output)
    (hdir : .dir .input ∉ evs) : (v.run evs).dir = .output :=
  List.foldlRecOn (motive := fun u : LineView => u.dir = .output) evs _ hv fun u hu ev hev => by
    cases ev with
    | dir d =>
      cases d with
      | output => rfl
      | input => exact absurd hev hdir
    | _ => exact hu

/-- Only BUSWR changes the latch (R107, R108): it holds what it held, or a byte written since. -/
theorem LineView.dout_run (v : LineView) (evs : List LineEvent) :
    (v.run evs).dout = v.dout ∨ .data (v.run evs).dout ∈ evs :=
  List.foldlRecOn (motive := fun u : LineView => u.dout = v.dout ∨ LineEvent.data u.dout ∈ evs) evs _ (.inl rfl)
    fun u hu ev hev => by
      cases ev with
      | data b => exact .inr hev
      | _ => exact hu

theorem LineView.busByte_of_output {v : LineView} (hv : v.dir = .output) : v.busByte = some v.dout := by
  rw [LineView.busByte, hv]

/-- Before the first byte is written the driven lines carry DOUT as it stood, E stands and no strobe reaches the
controller (R218). -/
theorem resetOpening_shows_dout (v : LineView) {n : Nat} (h1 : 1 ≤ n) (h3 : n ≤ 3) :
    (v.run (resetOpening.take n)).busByte = some v.dout ∧ (v.run (resetOpening.take n)).e = v.e ∧
      ∀ k : Controller, k.run v (resetOpening.take n) = k := by
  interval_cases n <;> exact ⟨rfl, rfl, fun _ => rfl⟩

/-- From the first byte written on, with the bus never turned round, the lines carry a byte written (R218). -/
theorem resetOpening_then_shows_written (v : LineView) {more : List LineEvent} (hdir : .dir .input ∉ more) :
    ∃ b, .data b ∈ resetOpening ++ more ∧ (v.run (resetOpening ++ more)).busByte = some b := by
  rw [LineView.run_append]
  refine ⟨_, ?_, LineView.busByte_of_output (LineView.dir_run_of_output rfl hdir)⟩
  rcases (v.run resetOpening).dout_run more with hkept | hwritten
  · rw [hkept]
    exact List.mem_append_left more (by decide : LineEvent.data 0x00#8 ∈ resetOpening)
  · exact List.mem_append_right resetOpening hwritten

/-- Settles O52: up to its fourth event the step from reset is in `resetOpening`; after it, past it. -/
theorem resetByteShowsForTwoEvents : Obligations.ResetByteShowsForTwoEvents := by
  unfold Obligations.ResetByteShowsForTwoEvents
  intro c i t ho h
  obtain ⟨rest, hevents, hdir⟩ := events_of_step_reset ho h
  simp only [hevents]
  refine ⟨rfl, fun n h1 h3 => ?_, rfl, fun n h4 => ?_⟩
  · rw [List.take_append_of_le_length (h3.trans (by decide : 3 ≤ resetOpening.length))]
    exact resetOpening_shows_dout _ h1 h3
  · rw [List.take_append, List.take_of_length_le (h4 : resetOpening.length ≤ n)]
    exact resetOpening_then_shows_written _ fun hmem => hdir (List.mem_of_mem_take hmem)

end Sys2Proof.Machine
end
